-- ==== Sys2Proof/Word.lean ====
section
/-! DEFINITION. The two unsigned data units of the hardware (R13): the byte, which is also a field
element of GF(2^8) (R14), and the 32-bit word (R15). -/

namespace Sys2Proof

/-- A byte: 8 bits, bit 0 least significant (R13). -/
abbrev Byte := BitVec 8

/-- A word: 32 bits (R13). -/
abbrev Word := BitVec 32

end Sys2Proof
end

