-- ==== Sys2Proof/Syntax.lean ====
section
/-! DEFINITION. The 21 commands of AESE-CMD v1, one constructor per row of the opcode map (R94), with
the operands each command's format carries (R92, R93). -/

namespace Sys2Proof

/-- A command. Byte operands that are field elements or table indices are bytes; an index into the
schedule or into the round-constant table is a number (R93), bounded by WellFormed. -/
inductive Instr where
  /-- NOP (R120). -/
  | nop
  /-- GF_ADD a, b (R142). -/
  | gfAdd (a b : Byte)
  /-- GF_XTIME a (R143). -/
  | gfXtime (a : Byte)
  /-- GF_MUL a, b (R144). -/
  | gfMul (a b : Byte)
  /-- SBOX a (R165). -/
  | sbox (a : Byte)
  /-- INV_SBOX a (R166). -/
  | invSbox (a : Byte)
  /-- KEY_EXPAND (R184). -/
  | keyExpand
  /-- ROT_WORD (R186). -/
  | rotWord
  /-- SUB_WORD (R187). -/
  | subWord
  /-- RCON j (R188). -/
  | rcon (j : Nat)
  /-- KEY_CLEAR (R189). -/
  | keyClear
  /-- LOAD_STATE (R212). -/
  | loadState
  /-- SUB_BYTES (R213). -/
  | subBytes
  /-- INV_SUB_BYTES (R214). -/
  | invSubBytes
  /-- SHIFT_ROWS (R215). -/
  | shiftRows
  /-- INV_SHIFT_ROWS (R216). -/
  | invShiftRows
  /-- MIX_COLUMNS (R219). -/
  | mixColumns
  /-- INV_MIX_COLUMNS (R220). -/
  | invMixColumns
  /-- ADD_ROUND_KEY off, `off` counted in schedule words (R93, R222). -/
  | addRoundKey (off : Nat)
  /-- ENCRYPT (R241). -/
  | encrypt
  /-- DECRYPT (R242). -/
  | decrypt
  deriving DecidableEq, Repr

/-- The three formats of a command word: which of the operand fields A and B it uses (R92). -/
inductive Format where
  | n
  | a
  | ab
  deriving DecidableEq, Repr

end Sys2Proof
end

