-- ==== Sys2Proof/WellFormed.lean ====
section
/-! DEFINITION. When a command can be written down at all: every operand is a number 0 to 255 (R98).
Byte operands are so by their type; the two index operands are checked. A command that is well
formed may still fail its issue checks (RANGE, R275): that is behaviour, not form. -/

namespace Sys2Proof

/-- Operands fit the 8-bit field A (R93, R98). -/
def Instr.wellFormed : Instr → Bool
  | .nop => true
  | .gfAdd _ _ => true
  | .gfXtime _ => true
  | .gfMul _ _ => true
  | .sbox _ => true
  | .invSbox _ => true
  | .keyExpand => true
  | .rotWord => true
  | .subWord => true
  | .rcon j => j < 256
  | .keyClear => true
  | .loadState => true
  | .subBytes => true
  | .invSubBytes => true
  | .shiftRows => true
  | .invShiftRows => true
  | .mixColumns => true
  | .invMixColumns => true
  | .addRoundKey off => off < 256
  | .encrypt => true
  | .decrypt => true

end Sys2Proof
end

