-- ==== Sys2Proof/Decode.lean ====
section
/-! DEFINITION. The command word: its fields (R91), the total decoder (R95), which rejects by name
every word that is no command (R96), and the encoder (R98), both from the opcode map (R94). Decoding
is the same in every state (R97), so it takes the word alone. -/

namespace Sys2Proof

/-- OPC = cmd[7:0] (R91). -/
def opcField (cmd : Word) : Byte := cmd.extractLsb' 0 8

/-- A = cmd[15:8] (R91). -/
def aField (cmd : Word) : Byte := cmd.extractLsb' 8 8

/-- B = cmd[23:16] (R91). -/
def bField (cmd : Word) : Byte := cmd.extractLsb' 16 8

/-- RSV = cmd[31:24] (R91). -/
def rsvField (cmd : Word) : Byte := cmd.extractLsb' 24 8

/-- Why a word is no command (R95, R96). The hardware reports each the same way, as ILLEGAL_COMMAND
(R272). -/
inductive DecodeError where
  /-- OPC is one of the 235 unassigned opcodes. -/
  | unassignedOpcode
  /-- RSV is not zero. -/
  | reservedNotZero
  /-- An operand field the format does not use is not zero. -/
  | unusedOperandNotZero
  deriving DecidableEq, Repr

/-- The opcode map (R94): the format of each assigned opcode and the command its operands make. -/
def opcodeRow (opc : Byte) (a b : Byte) : Option (Format × Instr) :=
  match opc.toNat with
  | 0x00 => some (.n, .nop)
  | 0x10 => some (.ab, .gfAdd a b)
  | 0x11 => some (.a, .gfXtime a)
  | 0x12 => some (.ab, .gfMul a b)
  | 0x20 => some (.a, .sbox a)
  | 0x21 => some (.a, .invSbox a)
  | 0x30 => some (.n, .keyExpand)
  | 0x31 => some (.n, .rotWord)
  | 0x32 => some (.n, .subWord)
  | 0x33 => some (.a, .rcon a.toNat)
  | 0x34 => some (.n, .keyClear)
  | 0x40 => some (.n, .loadState)
  | 0x41 => some (.n, .subBytes)
  | 0x42 => some (.n, .invSubBytes)
  | 0x43 => some (.n, .shiftRows)
  | 0x44 => some (.n, .invShiftRows)
  | 0x45 => some (.n, .mixColumns)
  | 0x46 => some (.n, .invMixColumns)
  | 0x47 => some (.a, .addRoundKey a.toNat)
  | 0x50 => some (.n, .encrypt)
  | 0x51 => some (.n, .decrypt)
  | _ => none

/-- The operand fields a format does not use are zero (R92). -/
def unusedZero (f : Format) (cmd : Word) : Bool :=
  match f with
  | .n => aField cmd == 0 && bField cmd == 0
  | .a => bField cmd == 0
  | .ab => true

/-- `decode(cmd)` of R95: a command, or the reason why the word is illegal. -/
def decode (cmd : Word) : Except DecodeError Instr :=
  match opcodeRow (opcField cmd) (aField cmd) (bField cmd) with
  | none => .error .unassignedOpcode
  | some (f, i) =>
    if rsvField cmd ≠ 0 then .error .reservedNotZero
    else if unusedZero f cmd then .ok i
    else .error .unusedOperandNotZero

/-- OPC(m): the opcode of a command (R94). -/
def opcodeOf : Instr → Byte
  | .nop => 0x00
  | .gfAdd _ _ => 0x10
  | .gfXtime _ => 0x11
  | .gfMul _ _ => 0x12
  | .sbox _ => 0x20
  | .invSbox _ => 0x21
  | .keyExpand => 0x30
  | .rotWord => 0x31
  | .subWord => 0x32
  | .rcon _ => 0x33
  | .keyClear => 0x34
  | .loadState => 0x40
  | .subBytes => 0x41
  | .invSubBytes => 0x42
  | .shiftRows => 0x43
  | .invShiftRows => 0x44
  | .mixColumns => 0x45
  | .invMixColumns => 0x46
  | .addRoundKey _ => 0x47
  | .encrypt => 0x50
  | .decrypt => 0x51

/-- The format of a command (R94). -/
def formatOf : Instr → Format
  | .nop => .n
  | .gfAdd _ _ => .ab
  | .gfXtime _ => .a
  | .gfMul _ _ => .ab
  | .sbox _ => .a
  | .invSbox _ => .a
  | .keyExpand => .n
  | .rotWord => .n
  | .subWord => .n
  | .rcon _ => .a
  | .keyClear => .n
  | .loadState => .n
  | .subBytes => .n
  | .invSubBytes => .n
  | .shiftRows => .n
  | .invShiftRows => .n
  | .mixColumns => .n
  | .invMixColumns => .n
  | .addRoundKey _ => .a
  | .encrypt => .n
  | .decrypt => .n

/-- The operand of field A, 0 where the command has none (R98). -/
def operandA : Instr → Byte
  | .nop => 0
  | .gfAdd a _ => a
  | .gfXtime a => a
  | .gfMul a _ => a
  | .sbox a => a
  | .invSbox a => a
  | .keyExpand => 0
  | .rotWord => 0
  | .subWord => 0
  | .rcon j => BitVec.ofNat 8 j
  | .keyClear => 0
  | .loadState => 0
  | .subBytes => 0
  | .invSubBytes => 0
  | .shiftRows => 0
  | .invShiftRows => 0
  | .mixColumns => 0
  | .invMixColumns => 0
  | .addRoundKey off => BitVec.ofNat 8 off
  | .encrypt => 0
  | .decrypt => 0

/-- The operand of field B, 0 where the command has none (R98). -/
def operandB : Instr → Byte
  | .nop => 0
  | .gfAdd _ b => b
  | .gfXtime _ => 0
  | .gfMul _ b => b
  | .sbox _ => 0
  | .invSbox _ => 0
  | .keyExpand => 0
  | .rotWord => 0
  | .subWord => 0
  | .rcon _ => 0
  | .keyClear => 0
  | .loadState => 0
  | .subBytes => 0
  | .invSubBytes => 0
  | .shiftRows => 0
  | .invShiftRows => 0
  | .mixColumns => 0
  | .invMixColumns => 0
  | .addRoundKey _ => 0
  | .encrypt => 0
  | .decrypt => 0

/-- `enc(m, a, b) = (b << 16) | (a << 8) | OPC(m)` (R98). -/
def encode (i : Instr) : Word :=
  ((operandB i).setWidth 32 <<< 16) ||| ((operandA i).setWidth 32 <<< 8) ||| (opcodeOf i).setWidth 32

/-- The bits a format fixes in a command word (R92). -/
def maskOf : Format → Word
  | .n => 0xFFFFFFFF
  | .a => 0xFFFF00FF
  | .ab => 0xFF0000FF

/-- The rows of opcode_table.json as (match, mask), in its order: a word is the row's command when
`cmd & mask = match` (R95). -/
def opcodeTable : List (Word × Word) :=
  [(0x00000000, 0xFFFFFFFF), (0x00000010, 0xFF0000FF), (0x00000011, 0xFFFF00FF),
   (0x00000012, 0xFF0000FF), (0x00000020, 0xFFFF00FF), (0x00000021, 0xFFFF00FF),
   (0x00000030, 0xFFFFFFFF), (0x00000031, 0xFFFFFFFF), (0x00000032, 0xFFFFFFFF),
   (0x00000033, 0xFFFF00FF), (0x00000034, 0xFFFFFFFF)] ++
  [(0x00000040, 0xFFFFFFFF), (0x00000041, 0xFFFFFFFF), (0x00000042, 0xFFFFFFFF),
   (0x00000043, 0xFFFFFFFF), (0x00000044, 0xFFFFFFFF), (0x00000045, 0xFFFFFFFF),
   (0x00000046, 0xFFFFFFFF), (0x00000047, 0xFFFF00FF), (0x00000050, 0xFFFFFFFF),
   (0x00000051, 0xFFFFFFFF)]

/-- Whether a row of the table matches a word (R95). -/
def rowMatches (row : Word × Word) (cmd : Word) : Bool := cmd &&& row.2 == row.1

/-- The command as a row of the opcode table writes it: the word is `w` of `nbits` bits, numbered from
the least significant bit of the word; every higher bit is 0. -/
def decodeTableWord (nbits w : Nat) : Option Instr :=
  (decode (BitVec.ofNat 32 (w % 2 ^ nbits))).toOption

end Sys2Proof
end

