-- ==== Sys2Proof/Config.lean ====
section
/-! DEFINITION. What one machine fixes: the size of the register window, and the one free value the
spec leaves open and lets the machine run on with. -/

namespace Sys2Proof.Config

/-- Bytes in the register window (R11, R61). -/
def windowBytes : Nat := 512

/-- Bits every host access moves (R11, R65). -/
def busBits : Nat := 32

/-- Words of schedule storage (R11, R40). -/
def scheduleWords : Nat := 60

/-- Words of the round-constant table (R11, R180). -/
def rconWords : Nat := 14

/-- FREE VALUE (R310, U3): what a host read of RESULT, STATEc or SCHEDi at window offset `offset`
returns while BUSY = 1. `epoch` counts the state-changing steps, so the value may change with every
one of them. It has no body: no proof can see which value it is. Log entry 2. -/
opaque busyReadValue (epoch offset : Nat) : Word

end Sys2Proof.Config
end

