-- ==== Sys2Proof/Machine/State.lean ====
section
/-! DEFINITION. The state of one AESE block as plain data (10_state.md), the reasons a step can stop,
and the state after reset (R45). -/

namespace Sys2Proof.Machine

/-- One column of the State grid, top to bottom: the byte in row r is byte r of the column's word
(R16, R210). -/
@[ext]
structure Column where
  b0 : Byte
  b1 : Byte
  b2 : Byte
  b3 : Byte
  deriving DecidableEq, Repr

/-- The State grid `s` (R39): four columns of four bytes; `s[r][c]` is byte r of column c. -/
@[ext]
structure Grid where
  c0 : Column
  c1 : Column
  c2 : Column
  c3 : Column
  deriving DecidableEq, Repr

/-- The sequencer state, STATUS.FSM (R31, R240). Values 5 to 7 of the field never occur (U12). -/
inductive Fsm where
  | idle
  | initial
  | round
  | final
  | done
  deriving DecidableEq, Repr

/-- STATUS.DIR (R31). -/
inductive Dir where
  | encrypt
  | decrypt
  deriving DecidableEq, Repr

/-- The outcome of a command, STATUS.ERRCODE (R271). Code 3 is reserved and never raised, and codes 7
to 15 are never raised (U11). -/
inductive ErrCode where
  | ok
  | invalidKeyLength
  | invalidBlockLength
  | illegalCommand
  | keyNotValid
  | range
  deriving DecidableEq, Repr

/-- The host-writable input registers KEY0..7, KEYLEN.LEN, BLKLEN.LEN, DIN0..3 and OPW (R22 to R26).
A snapshot taken at issue (R110) is a value of the same type. The `…Written` marks are the model's
own: whether the register has been written since reset (R45, R305; log entry 16). -/
@[ext]
structure HostRegs where
  key : Vector Word 8
  keylen : Byte
  blklen : Byte
  din : Vector Word 4
  opw : Word
  keyWritten : Vector Bool 8
  dinWritten : Vector Bool 4
  opwWritten : Bool
  deriving DecidableEq, Repr

/-- The fields of STATUS other than BUSY (R31). -/
@[ext]
structure Status where
  keyValid : Bool
  err : Bool
  ovr : Bool
  errcode : ErrCode
  nk : BitVec 4
  nr : BitVec 4
  fsm : Fsm
  dir : Dir
  round : BitVec 4
  deriving DecidableEq, Repr

/-- The pending record of the command in flight (R41, R110). -/
structure Pending where
  /-- the command word as written to CMD -/
  cmd : Word
  /-- the verdict of the issue check; `ok` means accepted (R275) -/
  verdict : ErrCode
  /-- the input registers at issue -/
  snap : HostRegs
  deriving DecidableEq, Repr

/-- The model's own marks on the engine's data storage (log entry 16): whether RESULT and the grid
have been written since reset, and how many words of W, always a prefix, have been (R45, U13). -/
structure Written where
  result : Bool
  grid : Bool
  sched : Nat
  deriving DecidableEq, Repr

/-- What happens next at the block's ports, or that it is the engine's turn (R20, R60). The list of
them is the model's inputs and interleaving (log entry 3). -/
inductive Event where
  /-- the engine takes its step, if it has one -/
  | engine
  /-- the host reads `width` bits at byte offset `offset` of the window -/
  | read (offset width : Nat)
  /-- the host writes `value`, `width` bits wide, at byte offset `offset` of the window -/
  | write (offset width : Nat) (value : Word)
  /-- the platform drives rst_n to this level (R300) -/
  | rst (level : Bool)
  deriving DecidableEq, Repr

/-- The whole block. -/
@[ext]
structure State where
  /-- the level of rst_n (R60, R300) -/
  rstN : Bool
  /-- KEY, KEYLEN, BLKLEN, DIN, OPW (R22 to R26) -/
  regs : HostRegs
  /-- RESULT (R27) -/
  result : Word
  /-- the State grid (R39), seen by the host as STATE0..3 (R28) -/
  grid : Grid
  /-- the schedule W[0..59] (R40), seen by the host as SCHED0..59 (R29) -/
  sched : Vector Word 60
  /-- STATUS but for BUSY (R31) -/
  status : Status
  /-- the pending record (R41), present exactly while BUSY = 1 -/
  pending : Option Pending
  /-- the model's marks of R305 (log entry 16) -/
  written : Written
  /-- the bus_rdata port (R60): the value of the last host read (log entry 8) -/
  busRdata : Word
  /-- the model's inputs and interleaving, next first (log entry 3) -/
  events : List Event
  /-- the model's index of the free value of R310 (log entry 2) -/
  epoch : Nat
  deriving DecidableEq, Repr

/-- STATUS.BUSY: 1 exactly while a command is pending (R31, R41). -/
def State.busy (s : State) : Bool := s.pending.isSome

/-- Why the machine stops. -/
inductive Fault where
  /-- Raised by a host access whose offset is not one of the window's 512 bytes: the spec says no such
  address of the block exists (R61). Safe: no block behaviour is cut off, since the block is not
  selected there. -/
  | outsideWindow
  deriving DecidableEq, Repr

/-- Why the machine refuses. -/
inductive Refusal where
  /-- An arm of exec whose instruction has no meaning yet. Safe. No arm raises it. -/
  | notModelled (mnemonic : String)
  /-- Raised by a host access that the port cannot carry: an offset that is not a multiple of 4, or a
  width other than 32 bits (R65, U8: "a model rejects the access"). Safe. -/
  | accessNotPresentable
  deriving DecidableEq, Repr

/-- The input registers after reset: the lengths are 0 (R45); the data registers are unspecified there
and 0 here (log entry 1). -/
def HostRegs.reset : HostRegs where
  key := Vector.replicate 8 0
  keylen := 0
  blklen := 0
  din := Vector.replicate 4 0
  opw := 0
  keyWritten := Vector.replicate 8 false
  dinWritten := Vector.replicate 4 false
  opwWritten := false

/-- STATUS = 0x00000000 after reset (R31, R45). -/
def Status.reset : Status where
  keyValid := false
  err := false
  ovr := false
  errcode := .ok
  nk := 0
  nr := 0
  fsm := .idle
  dir := .encrypt
  round := 0

/-- The all-zero column. -/
def Column.zero : Column := ⟨0, 0, 0, 0⟩

/-- The State grid after reset: unspecified in the spec (R45), all zero here (log entry 1). -/
def Grid.zero : Grid := ⟨Column.zero, Column.zero, Column.zero, Column.zero⟩

/-- The block right after reset (R45, R300), with no input waiting. -/
def State.reset : State where
  rstN := true
  regs := HostRegs.reset
  result := 0
  grid := Grid.zero
  sched := Vector.replicate 60 0
  status := Status.reset
  pending := none
  written := ⟨false, false, 0⟩
  busRdata := 0
  events := []
  epoch := 0

end Sys2Proof.Machine
end

