-- ==== Sys2Proof/Machine/Flags.lean ====
section
/-! DEFINITION. STATUS as the host sees it (R31) and the write-1-to-clear rule (R34, R35, R37). -/

namespace Sys2Proof.Machine

/-- The code of an outcome in STATUS.ERRCODE (R271). -/
def errBits : ErrCode → BitVec 4
  | .ok => 0
  | .invalidKeyLength => 1
  | .invalidBlockLength => 2
  | .illegalCommand => 4
  | .keyNotValid => 5
  | .range => 6

/-- The code of a sequencer state in STATUS.FSM (R31). -/
def fsmBits : Fsm → BitVec 3
  | .idle => 0
  | .initial => 1
  | .round => 2
  | .final => 3
  | .done => 4

/-- STATUS.DIR: 0 encrypt, 1 decrypt (R31). -/
def dirBits : Dir → BitVec 1
  | .encrypt => 0
  | .decrypt => 1

/-- A one-bit field of STATUS. -/
def flagBit (b : Bool) : BitVec 1 := BitVec.ofBool b

/-- The whole STATUS register (R31), most significant field first: ROUND, DIR, FSM, NR, NK, reserved
zeros, ERRCODE, reserved zeros, OVR, ERR, KEY_VALID, BUSY. -/
def statusWord (busy : Bool) (st : Status) : Word :=
  st.round ++ dirBits st.dir ++ fsmBits st.fsm ++ st.nr ++ st.nk ++ 0#4 ++ errBits st.errcode ++ 0#4 ++
    flagBit st.ovr ++ flagBit st.err ++ flagBit st.keyValid ++ flagBit busy

/-- A host write of `v` to STATUS: bit 2 clears ERR, bit 3 clears OVR, nothing else has an effect
(R37, R64). -/
def statusWrite (v : Word) (st : Status) : Status :=
  { st with err := st.err && !v.getLsbD 2, ovr := st.ovr && !v.getLsbD 3 }

/-- The completion fields `complete(e)` writes in STATUS (R115). `keepFsm` says that the command is an
ENCRYPT or DECRYPT that succeeded, whose FSM and ROUND stay. DIR stays in every case (R38). -/
def statusComplete (keepFsm : Bool) (e : ErrCode) (st : Status) : Status :=
  { st with
    errcode := e
    err := st.err || (e != .ok)
    fsm := if keepFsm then st.fsm else .idle
    round := if keepFsm then st.round else 0 }

/-- KEY_VALID, NK and NR to 0 (R33, R189, R276). -/
def statusClearKey (st : Status) : Status := { st with keyValid := false, nk := 0, nr := 0 }

/-- KEY_VALID to 1, NK and NR to the key's values (R33, R184). -/
def statusSetKey (nk nr : Nat) (st : Status) : Status :=
  { st with keyValid := true, nk := BitVec.ofNat 4 nk, nr := BitVec.ofNat 4 nr }

end Sys2Proof.Machine
end

