-- ==== Sys2Proof/Machine/Operands.lean ====
section
/-! DEFINITION. How bytes, words, blocks and the State grid are put together and taken apart (R15, R16,
R22, R25, R28, R67 to R69, R210), and where a command's operands come from. -/

namespace Sys2Proof.Machine

/-- `word(b0,b1,b2,b3) = b0 ‖ b1 ‖ b2 ‖ b3` (R15): byte 0 is the most significant (R67). -/
def packWord (b0 b1 b2 b3 : Byte) : Word := b0 ++ b1 ++ b2 ++ b3

/-- `byte_j(w) = w[31-8j : 24-8j]` for j in 0..3 (R15). -/
def byteOf (j : Nat) (w : Word) : Byte := w.extractLsb' (24 - 8 * j) 8

/-- `zext_32` of a byte (R16). -/
def zextByte (b : Byte) : Word := b.setWidth 32

/-- Element `i` of a bank of words; 0 beyond its end, which no rule reads (log entry 13). -/
def wordAt {n : Nat} (v : Vector Word n) (i : Nat) : Word := (v[i]?).getD 0

/-- Key byte j: `byte_(j mod 4)(KEY(j div 4))` (R22). -/
def keyByte (key : Vector Word 8) (j : Nat) : Byte := byteOf (j % 4) (wordAt key (j / 4))

/-- The cipher key as an ordered sequence of `4·Nk` bytes (R18, R22). -/
def keyBytes (key : Vector Word 8) (nk : Nat) : List Byte := (List.range (4 * nk)).map (keyByte key)

/-- Block byte i: `byte_(i mod 4)(DIN(i div 4))` (R25). -/
def dinByte (din : Vector Word 4) (i : Nat) : Byte := byteOf (i % 4) (wordAt din (i / 4))

/-- Byte r of a column. -/
def Column.get (v : Column) (r : Fin 4) : Byte :=
  match r with
  | 0 => v.b0
  | 1 => v.b1
  | 2 => v.b2
  | 3 => v.b3

/-- The column whose byte r is `f r`. -/
def Column.ofFn (f : Fin 4 → Byte) : Column := ⟨f 0, f 1, f 2, f 3⟩

/-- `col(s, c) = word(s[0][c], s[1][c], s[2][c], s[3][c])` for one column (R16). -/
def Column.toWord (v : Column) : Word := packWord v.b0 v.b1 v.b2 v.b3

/-- The column `(byte_0(w), byte_1(w), byte_2(w), byte_3(w))` (R222). -/
def Column.ofWord (w : Word) : Column := ⟨byteOf 0 w, byteOf 1 w, byteOf 2 w, byteOf 3 w⟩

/-- Column c of the grid. -/
def Grid.col (s : Grid) (c : Fin 4) : Column :=
  match c with
  | 0 => s.c0
  | 1 => s.c1
  | 2 => s.c2
  | 3 => s.c3

/-- `s[r][c]` (R16). -/
def Grid.get (s : Grid) (r c : Fin 4) : Byte := (s.col c).get r

/-- The grid whose columns are `f c`. -/
def Grid.ofCols (f : Fin 4 → Column) : Grid := ⟨f 0, f 1, f 2, f 3⟩

/-- The grid with `s[r][c] = f r c`. -/
def Grid.ofFn (f : Fin 4 → Fin 4 → Byte) : Grid := Grid.ofCols fun c => Column.ofFn fun r => f r c

/-- STATEc: column c with row 0 in bits [31:24] (R28). -/
def Grid.stateWord (s : Grid) (c : Fin 4) : Word := (s.col c).toWord

/-- The output block: STATE0..3 in order, which is the grid serialized column-major (R28, R68). -/
def Grid.words (s : Grid) : Vector Word 4 :=
  #v[s.stateWord 0, s.stateWord 1, s.stateWord 2, s.stateWord 3]

/-- `load(in)[r][c] = in[r + 4c]` (R210), with `in` the bytes of DIN (R25, R212). -/
def loadBlock (din : Vector Word 4) : Grid := Grid.ofFn fun r c => dinByte din (r.val + 4 * c.val)

end Sys2Proof.Machine
end

