-- ==== Sys2Proof/Machine/Ops.lean ====
section
/-! DEFINITION. The named operations over the block's state that the commands share: the writes of
RESULT, of the grid and of the schedule, completion (R115), the effect of an error (R274, R276), and
the one engine step of a command that is neither ENCRYPT nor DECRYPT (R114). -/

namespace Sys2Proof.Machine

/-- RESULT <- v (R27). -/
def State.withResult (s : State) (v : Word) : State :=
  { s with result := v, written := { s.written with result := true } }

/-- The State grid <- g, all of it a value written since reset (R39; log entry 16). -/
def State.withGrid (s : State) (g : Grid) : State :=
  { s with grid := g, written := { s.written with grid := true } }

/-- The State grid <- f of itself: it counts as written since reset only if it did before (R211, R305;
log entry 16). -/
def State.mapGrid (s : State) (f : Grid → Grid) : State := { s with grid := f s.grid }

/-- Schedule storage `old` with `ws` written from word `k` on, one word after the other. -/
def overwriteFrom : Nat → List Word → Vector Word 60 → Vector Word 60
  | _, [], old => old
  | k, w :: ws, old => overwriteFrom (k + 1) ws (old.setIfInBounds k w)

/-- Schedule storage whose first words are `ws` and whose other words are `old`'s (R40). -/
def overwriteFirst (ws : List Word) (old : Vector Word 60) : Vector Word 60 := overwriteFrom 0 ws old

/-- W[0 .. ws.length-1] <- ws, the rest of W unchanged (R40, R184). -/
def State.withSchedule (s : State) (ws : List Word) : State :=
  { s with
    sched := overwriteFirst ws s.sched
    written := { s.written with sched := max s.written.sched ws.length } }

/-- KEY_VALID <- 1, NK <- nk, NR <- nr (R184). -/
def State.setKey (s : State) (nk nr : Nat) : State := { s with status := statusSetKey nk nr s.status }

/-- KEY_VALID <- 0, NK <- 0, NR <- 0 (R189, R276). -/
def State.clearKey (s : State) : State := { s with status := statusClearKey s.status }

/-- Whether a command word is one of ENCRYPT and DECRYPT, by its opcode (R110, R114, R115). -/
def isCipherWord (cmd : Word) : Bool :=
  opcField cmd == opcodeOf .encrypt || opcField cmd == opcodeOf .decrypt

/-- `complete(e)` of R115, for the command word `cmd`: the last engine step of every command. BUSY <- 0
is the pending record's absence. -/
def State.complete (s : State) (cmd : Word) (e : ErrCode) : State :=
  { s with
    status := statusComplete (e == .ok && isCipherWord cmd) e s.status
    pending := none }

/-- THE ONE WAY A COMMAND FAILS (R270, R274, R282): `complete(e)` and no other effect, except that
INVALID_KEY_LENGTH, which only KEY_EXPAND raises, also clears the key (R276). There is no way back to
model beside it: the host clears ERR and issues the next command (R283). -/
def State.fail (s : State) (cmd : Word) (e : ErrCode) : State :=
  (if e = .invalidKeyLength then s.clearKey else s).complete cmd e

/-- The one engine step of a command other than ENCRYPT and DECRYPT (R114): a failed verdict fails; an
accepted command has its effect, computed from the pending record, and completes in the same step.
With no command in flight the engine has no step and the block holds its state (R20, R290; log
entry 10). -/
def runOnce (effect : Pending → State → State) (s : State) : Host.Outcome State Fault Refusal :=
  match s.pending with
  | none => .next s
  | some p =>
    if p.verdict = .ok then .next ((effect p s).complete p.cmd .ok)
    else .next (s.fail p.cmd p.verdict)

/-- A state-changing step has passed: the free value of R310 may be another one (log entry 2). -/
def State.tick (s : State) : State := { s with epoch := s.epoch + 1 }

end Sys2Proof.Machine
end

