-- ==== Sys2Proof/Machine/Issue.lean ====
section
/-! DEFINITION. The issue of a command by a host write to CMD (R110), and the check that decides its
verdict once, at issue (R112, R275). -/

namespace Sys2Proof.Machine

/-- The legal cipher-key lengths in bytes (R23). -/
def legalKeyLen (len : Byte) : Bool := len == 16 || len == 24 || len == 32

/-- The check of ENCRYPT and DECRYPT: the key before the block (R275). -/
def checkCipher (keyValid : Bool) (snap : HostRegs) : ErrCode :=
  if keyValid = false then .keyNotValid
  else if snap.blklen ≠ 16 then .invalidBlockLength
  else .ok

/-- The check of a command's own, after decoding: the first error that applies (R275). -/
def checkInstr (i : Instr) (keyValid : Bool) (nr : BitVec 4) (snap : HostRegs) : ErrCode :=
  match i with
  | .keyExpand => if legalKeyLen snap.keylen then .ok else .invalidKeyLength
  | .loadState => if snap.blklen ≠ 16 then .invalidBlockLength else .ok
  | .encrypt => checkCipher keyValid snap
  | .decrypt => checkCipher keyValid snap
  | .addRoundKey off =>
    if keyValid = false then .keyNotValid
    else if off + 4 > 4 * (nr.toNat + 1) then .range
    else .ok
  | .rcon j => if j > 13 then .range else .ok
  | .nop => .ok
  | .gfAdd _ _ => .ok
  | .gfXtime _ => .ok
  | .gfMul _ _ => .ok
  | .sbox _ => .ok
  | .invSbox _ => .ok
  | .rotWord => .ok
  | .subWord => .ok
  | .keyClear => .ok
  | .subBytes => .ok
  | .invSubBytes => .ok
  | .shiftRows => .ok
  | .invShiftRows => .ok
  | .mixColumns => .ok
  | .invMixColumns => .ok

/-- `check(v, KEY_VALID, NR, snap)` (R275): decoding precedes every other check. -/
def check (v : Word) (keyValid : Bool) (nr : BitVec 4) (snap : HostRegs) : ErrCode :=
  match decode v with
  | .error _ => .illegalCommand
  | .ok i => checkInstr i keyValid nr snap

/-- The direction an ENCRYPT or DECRYPT word sets (R110). -/
def dirOfWord (v : Word) : Dir := if opcField v = opcodeOf .encrypt then .encrypt else .decrypt

/-- FSM <- INITIAL, ROUND <- 0, DIR <- d (R110, R243). -/
def statusStart (d : Dir) (st : Status) : Status := { st with fsm := .initial, round := 0, dir := d }

/-- The issue of command word `v` (R110): snapshot, verdict, pending record (and so BUSY), and the start
of the sequencer for an accepted ENCRYPT or DECRYPT. -/
def issue (v : Word) (s : State) : State :=
  { s with
    pending := some ⟨v, check v s.status.keyValid s.status.nr s.regs, s.regs⟩
    status :=
      if check v s.status.keyValid s.status.nr s.regs = .ok ∧ isCipherWord v = true then
        statusStart (dirOfWord v) s.status
      else s.status }

/-- A host write of `v` to CMD: issued while BUSY = 0; dropped while BUSY = 1, setting OVR and changing
nothing else (R30, R113). -/
def writeCmd (v : Word) (s : State) : State :=
  if s.busy then { s with status := { s.status with ovr := true } } else issue v s

end Sys2Proof.Machine
end

