-- ==== Sys2Proof/Machine/Bus.lean ====
section
/-! DEFINITION. The host's side: the register map (R62), the read and write primitives (R63, R64), reads
while busy (R310), the accesses the port cannot carry (R65), and the reset pin (R300). -/

namespace Sys2Proof.Machine

/-- The registers of the window (R62). -/
inductive Reg where
  | cmd
  | status
  | keylen
  | blklen
  | opw
  | result
  | key (k : Fin 8)
  | din (k : Fin 4)
  | state (c : Fin 4)
  | sched (i : Fin 60)
  | reserved
  deriving DecidableEq, Repr

/-- The register at a byte offset, a multiple of 4 below 512 (R62). Every offset of the window that
names no register is reserved. -/
def regAt (off : Nat) : Reg :=
  if off = 0x000 then .cmd
  else if off = 0x004 then .status
  else if off = 0x008 then .keylen
  else if off = 0x00C then .blklen
  else if off = 0x010 then .opw
  else if off = 0x014 then .result
  else if h : 0x020 ≤ off ∧ off < 0x040 then .key ⟨(off - 0x020) / 4, by omega⟩
  else if h : 0x040 ≤ off ∧ off < 0x050 then .din ⟨(off - 0x040) / 4, by omega⟩
  else if h : 0x050 ≤ off ∧ off < 0x060 then .state ⟨(off - 0x050) / 4, by omega⟩
  else if h : 0x100 ≤ off ∧ off < 0x1F0 then .sched ⟨(off - 0x100) / 4, by omega⟩
  else .reserved

/-- The byte offset of a register (R62); for `reserved`, the first reserved offset. -/
def regOffset : Reg → Nat
  | .cmd => 0x000
  | .status => 0x004
  | .keylen => 0x008
  | .blklen => 0x00C
  | .opw => 0x010
  | .result => 0x014
  | .reserved => 0x018
  | .key k => 0x020 + 4 * k.val
  | .din k => 0x040 + 4 * k.val
  | .state c => 0x050 + 4 * c.val
  | .sched i => 0x100 + 4 * i.val

/-- The current value of a register that the engine may be updating: its stored value while BUSY = 0, a
free value while BUSY = 1 (R310, U3). -/
def engineValue (off : Nat) (stored : Word) (s : State) : Word :=
  if s.busy then Config.busyReadValue s.epoch off else stored

/-- The value `HostRead(off)` returns while rst_n = 1 (R63). CMD, reserved offsets and reserved bits
read 0. -/
def readValue (off : Nat) (s : State) : Word :=
  match regAt off with
  | .cmd => 0
  | .status => statusWord s.busy s.status
  | .keylen => zextByte s.regs.keylen
  | .blklen => zextByte s.regs.blklen
  | .opw => s.regs.opw
  | .result => engineValue off s.result s
  | .key k => s.regs.key[k]
  | .din k => s.regs.din[k]
  | .state c => engineValue off (s.grid.stateWord c) s
  | .sched i => engineValue off (s.sched[i]) s
  | .reserved => 0

/-- `HostRead(off)`: the value appears on bus_rdata and nothing else changes (R63, R66). While rst_n = 0
reads return 0 (R300). -/
def hostRead (off : Nat) (s : State) : State :=
  { s with busRdata := if s.rstN then readValue off s else 0 }

/-- A write to one of the input registers, marked as written since reset. -/
def writeInput (r : Reg) (v : Word) (h : HostRegs) : HostRegs :=
  match r with
  | .keylen => { h with keylen := v.extractLsb' 0 8 }
  | .blklen => { h with blklen := v.extractLsb' 0 8 }
  | .opw => { h with opw := v, opwWritten := true }
  | .key k => { h with key := h.key.set k v, keyWritten := h.keyWritten.set k true }
  | .din k => { h with din := h.din.set k v, dinWritten := h.dinWritten.set k true }
  | .cmd => h
  | .status => h
  | .result => h
  | .state _ => h
  | .sched _ => h
  | .reserved => h

/-- `HostWrite(off, v)` while rst_n = 1 (R64). Input registers accept writes whether BUSY is 0 or 1. -/
def writeReg (r : Reg) (v : Word) (s : State) : State :=
  match r with
  | .cmd => writeCmd v s
  | .status => { s with status := statusWrite v s.status }
  | .keylen => { s with regs := writeInput r v s.regs }
  | .blklen => { s with regs := writeInput r v s.regs }
  | .opw => { s with regs := writeInput r v s.regs }
  | .key _ => { s with regs := writeInput r v s.regs }
  | .din _ => { s with regs := writeInput r v s.regs }
  | .result => s
  | .state _ => s
  | .sched _ => s
  | .reserved => s

/-- `HostWrite(off, v)` (R64). While rst_n = 0 it has no effect (R300). -/
def hostWrite (off : Nat) (v : Word) (s : State) : State :=
  if s.rstN then writeReg (regAt off) v s else s

/-- A host access of `width` bits at byte offset `off`, with the effect `f`: refused when the port cannot
carry it (R65, U8), a fault when the window has no such offset (R61). -/
def busAccess (off width : Nat) (f : State → State) (s : State) : Host.Outcome State Fault Refusal :=
  if width ≠ Config.busBits ∨ off % 4 ≠ 0 then .refused .accessNotPresentable
  else if Config.windowBytes ≤ off then .fault .outsideWindow
  else .next (f s)

/-- The window offset of a platform address, for a window at `base` = AESE_BASE (R61, U6): none for an
address that does not select the block. -/
def windowOffset (base addr : Nat) : Option Nat :=
  if base ≤ addr ∧ addr < base + Config.windowBytes then some (addr - base) else none

/-- rst_n driven to `level` (R300). Falling, it puts the block in the reset state and abandons the command
in flight; rising, it lets the block go on from there. The inputs still to come, the free value's
index and the last value read are no state of the block's and stay (log entries 8, 9). -/
def setRst (level : Bool) (s : State) : State :=
  if level then { s with rstN := true }
  else
    { State.reset with
      rstN := false
      busRdata := s.busRdata
      events := s.events
      epoch := s.epoch }

end Sys2Proof.Machine
end

