-- ==== Sys2Proof/Machine/GfArith.lean ====
section
/-! DEFINITION. GF(2^8) arithmetic (41_gf_arith.md): the field functions `add`, `xtime`, `multiply`, and
the commands GF_ADD, GF_XTIME, GF_MUL. -/

namespace Sys2Proof.Machine

/-- `add(a, b) = a ⊕ b` (R140). -/
def gfAdd (a b : Byte) : Byte := a ^^^ b

/-- `xtime(b)`: shift left by one, XOR 0x1b if the original high bit was set (R141). -/
def xtime (b : Byte) : Byte := if b.getLsbD 7 then (b <<< 1) ^^^ 0x1b#8 else b <<< 1

/-- `n` rounds of the loop of R145, with its variables acc, a, b. The source skips the replacement of a
and b after the last round; the accumulator it returns does not depend on that one. -/
def multiplyLoop : Nat → Byte → Byte → Byte → Byte
  | 0, acc, _, _ => acc
  | n + 1, acc, a, b =>
    multiplyLoop n (if a.getLsbD 0 then gfAdd acc b else acc) (a >>> 1) (xtime b)

/-- `multiply(a, b)` (R145). -/
def multiply (a b : Byte) : Byte := multiplyLoop 8 0 a b

/-- GF_ADD (R142). -/
def execGfAdd (a b : Byte) (s : State) : Host.Outcome State Fault Refusal :=
  runOnce (fun _ s => s.withResult (zextByte (gfAdd a b))) s

/-- GF_XTIME (R143). -/
def execGfXtime (a : Byte) (s : State) : Host.Outcome State Fault Refusal :=
  runOnce (fun _ s => s.withResult (zextByte (xtime a))) s

/-- GF_MUL (R144). -/
def execGfMul (a b : Byte) (s : State) : Host.Outcome State Fault Refusal :=
  runOnce (fun _ s => s.withResult (zextByte (multiply a b))) s

end Sys2Proof.Machine
end

