-- ==== Sys2Proof/Machine/KeySchedule.lean ====
section
/-! DEFINITION. The round constants (R180), the word functions (R181, R182), key expansion (R183), and
the commands KEY_EXPAND, ROT_WORD, SUB_WORD, RCON, KEY_CLEAR. -/

namespace Sys2Proof.Machine

/-- `Rcon[j] >> 24` for j = 0..13, the hardware's constant table (R180). -/
def rconBytes : List Byte :=
  [0x01, 0x02, 0x04, 0x08, 0x10, 0x20, 0x40, 0x80, 0x1b, 0x36, 0x6c, 0xd8, 0xab, 0x4d]

/-- `Rcon[j] = word(p_j, 0, 0, 0)` for j in 0..13 (R180); no rule reads beyond (log entry 13). -/
def rcon (j : Nat) : Word := packWord (rconBytes.getD j 0) 0 0 0

/-- `rotWord(w)`: `[b0,b1,b2,b3] → [b1,b2,b3,b0]` (R181). -/
def rotWord (w : Word) : Word := packWord (byteOf 1 w) (byteOf 2 w) (byteOf 3 w) (byteOf 0 w)

/-- `subWord(w)`: `subByte` on each of the four bytes (R182). -/
def subWord (w : Word) : Word :=
  packWord (subByte (byteOf 0 w)) (subByte (byteOf 1 w)) (subByte (byteOf 2 w)) (subByte (byteOf 3 w))

/-- What the loop of R183 makes of temp = W[i-1] before it is XORed into W[i-Nk]. -/
def expandTemp (nk i : Nat) (temp : Word) : Word :=
  if i % nk = 0 then subWord (rotWord temp) ^^^ rcon (i / nk - 1)
  else if 6 < nk ∧ i % nk = 4 then subWord temp
  else temp

/-- `n` rounds of the second loop of R183, starting at i = `w.length`, where `w` is W[0 .. i-1]. -/
def expandLoop (nk : Nat) : Nat → List Word → List Word
  | 0, w => w
  | n + 1, w =>
    expandLoop nk n
      (w ++ [w.getD (w.length - nk) 0 ^^^ expandTemp nk w.length (w.getD (w.length - 1) 0)])

/-- `expand(k, Nk, Nr)` of R183: W[0 .. 4·(Nr+1)-1] from the key bytes. -/
def expand (k : List Byte) (nk nr : Nat) : List Word :=
  expandLoop nk (4 * (nr + 1) - nk)
    ((List.range nk).map fun i =>
      packWord (k.getD (4 * i) 0) (k.getD (4 * i + 1) 0) (k.getD (4 * i + 2) 0) (k.getD (4 * i + 3) 0))

/-- Nk of a cipher key of `len` bytes (R23, R184). -/
def nkOfLen (len : Byte) : Nat := len.toNat / 4

/-- Nr of Nk: 4 → 10, 6 → 12, 8 → 14 (R10), in the closed form of R184. -/
def nrOfNk (nk : Nat) : Nat := nk + 6

/-- The schedule KEY_EXPAND makes of a snapshot (R184). -/
def scheduleOf (snap : HostRegs) : List Word :=
  expand (keyBytes snap.key (nkOfLen snap.keylen)) (nkOfLen snap.keylen) (nrOfNk (nkOfLen snap.keylen))

/-- The effect of an accepted KEY_EXPAND (R184). -/
def keyExpandEffect (snap : HostRegs) (s : State) : State :=
  (s.withSchedule (scheduleOf snap)).setKey (nkOfLen snap.keylen) (nrOfNk (nkOfLen snap.keylen))

/-- KEY_EXPAND (R184). Its failure with INVALID_KEY_LENGTH is `State.fail`'s (R276). -/
def execKeyExpand (s : State) : Host.Outcome State Fault Refusal :=
  runOnce (fun p s => keyExpandEffect p.snap s) s

/-- ROT_WORD (R186). -/
def execRotWord (s : State) : Host.Outcome State Fault Refusal :=
  runOnce (fun p s => s.withResult (rotWord p.snap.opw)) s

/-- SUB_WORD (R187). -/
def execSubWord (s : State) : Host.Outcome State Fault Refusal :=
  runOnce (fun p s => s.withResult (subWord p.snap.opw)) s

/-- RCON (R188). -/
def execRcon (j : Nat) (s : State) : Host.Outcome State Fault Refusal :=
  runOnce (fun _ s => s.withResult (rcon j)) s

/-- KEY_CLEAR (R189): W, KEY and the grid stay. -/
def execKeyClear (s : State) : Host.Outcome State Fault Refusal := runOnce (fun _ s => s.clearKey) s

end Sys2Proof.Machine
end

