-- ==== Sys2Proof/Machine/Transforms.lean ====
section
/-! DEFINITION. The State transforms (44_state_transforms.md) as total functions on the grid (R211), and
the eight commands that run them. -/

namespace Sys2Proof.Machine

/-- SubBytes: every byte through `subByte` (R213). -/
def subBytes (s : Grid) : Grid := Grid.ofFn fun r c => subByte (s.get r c)

/-- InvSubBytes: every byte through `invSubByte` (R214). -/
def invSubBytes (s : Grid) : Grid := Grid.ofFn fun r c => invSubByte (s.get r c)

/-- ShiftRows: `s'[r][c] = s[r][(c + r) mod 4]` (R215). -/
def shiftRows (s : Grid) : Grid := Grid.ofFn fun r c => s.get r (c + r)

/-- InvShiftRows: `s'[r][c] = s[r][(c + 4 - r) mod 4]` (R216). -/
def invShiftRows (s : Grid) : Grid := Grid.ofFn fun r c => s.get r (c - r)

/-- Row r of the forward matrix M (R217). -/
def mixRow (r : Fin 4) : Column :=
  match r with
  | 0 => ⟨0x02, 0x03, 0x01, 0x01⟩
  | 1 => ⟨0x01, 0x02, 0x03, 0x01⟩
  | 2 => ⟨0x01, 0x01, 0x02, 0x03⟩
  | 3 => ⟨0x03, 0x01, 0x01, 0x02⟩

/-- Row r of the inverse matrix Minv (R218). -/
def invMixRow (r : Fin 4) : Column :=
  match r with
  | 0 => ⟨0x0e, 0x0b, 0x0d, 0x09⟩
  | 1 => ⟨0x09, 0x0e, 0x0b, 0x0d⟩
  | 2 => ⟨0x0d, 0x09, 0x0e, 0x0b⟩
  | 3 => ⟨0x0b, 0x0d, 0x09, 0x0e⟩

/-- The add-fold over k of `multiply(row[k], v[k])` (R217). -/
def gfDot (row v : Column) : Byte :=
  gfAdd (gfAdd (gfAdd (multiply row.b0 v.b0) (multiply row.b1 v.b1)) (multiply row.b2 v.b2))
    (multiply row.b3 v.b3)

/-- `mixColumn(v)` (R217). -/
def mixColumn (v : Column) : Column := Column.ofFn fun r => gfDot (mixRow r) v

/-- `invMixColumn(v)` (R218). -/
def invMixColumn (v : Column) : Column := Column.ofFn fun r => gfDot (invMixRow r) v

/-- MixColumns (R219). -/
def mixColumns (s : Grid) : Grid := Grid.ofCols fun c => mixColumn (s.col c)

/-- InvMixColumns (R220). -/
def invMixColumns (s : Grid) : Grid := Grid.ofCols fun c => invMixColumn (s.col c)

/-- AddRoundKey with the schedule slice W[off .. off+3]: each column is XORed, as a word, with the
slice's word (R222). -/
def addRoundKey (w : Vector Word 60) (s : Grid) (off : Nat) : Grid :=
  Grid.ofCols fun c => Column.ofWord (s.stateWord c ^^^ wordAt w (off + c.val))

/-- LOAD_STATE (R212). -/
def execLoadState (s : State) : Host.Outcome State Fault Refusal :=
  runOnce (fun p s => s.withGrid (loadBlock p.snap.din)) s

/-- SUB_BYTES (R213). -/
def execSubBytes (s : State) : Host.Outcome State Fault Refusal := runOnce (fun _ s => s.mapGrid subBytes) s

/-- INV_SUB_BYTES (R214). -/
def execInvSubBytes (s : State) : Host.Outcome State Fault Refusal :=
  runOnce (fun _ s => s.mapGrid invSubBytes) s

/-- SHIFT_ROWS (R215). -/
def execShiftRows (s : State) : Host.Outcome State Fault Refusal :=
  runOnce (fun _ s => s.mapGrid shiftRows) s

/-- INV_SHIFT_ROWS (R216). -/
def execInvShiftRows (s : State) : Host.Outcome State Fault Refusal :=
  runOnce (fun _ s => s.mapGrid invShiftRows) s

/-- MIX_COLUMNS (R219). -/
def execMixColumns (s : State) : Host.Outcome State Fault Refusal :=
  runOnce (fun _ s => s.mapGrid mixColumns) s

/-- INV_MIX_COLUMNS (R220). -/
def execInvMixColumns (s : State) : Host.Outcome State Fault Refusal :=
  runOnce (fun _ s => s.mapGrid invMixColumns) s

/-- ADD_ROUND_KEY (R222). -/
def execAddRoundKey (off : Nat) (s : State) : Host.Outcome State Fault Refusal :=
  runOnce (fun _ s => s.mapGrid fun g => addRoundKey s.sched g off) s

end Sys2Proof.Machine
end

