-- ==== Sys2Proof/Machine/Cipher.lean ====
section
/-! DEFINITION. The cipher engine (45_cipher_engine.md): the functions Cipher and Decipher (R241, R242),
the sequencer's steps (R244 to R246), and the commands ENCRYPT and DECRYPT, which take one sequencer
step each time they run. -/

namespace Sys2Proof.Machine

/-- The initial step of encryption: AddRoundKey with W[0..3] (R241). -/
def encInitial (w : Vector Word 60) (din : Vector Word 4) : Grid := addRoundKey w (loadBlock din) 0

/-- Round r of encryption (R241, R245). -/
def encRound (w : Vector Word 60) (r : Nat) (s : Grid) : Grid :=
  addRoundKey w (mixColumns (shiftRows (subBytes s))) (4 * r)

/-- The final round of encryption, without MixColumns (R241, R246). -/
def encFinal (w : Vector Word 60) (nr : Nat) (s : Grid) : Grid :=
  addRoundKey w (shiftRows (subBytes s)) (4 * nr)

/-- The grid after the initial step and rounds 1 to r of encryption. -/
def encAfter (w : Vector Word 60) (din : Vector Word 4) : Nat → Grid
  | 0 => encInitial w din
  | r + 1 => encRound w (r + 1) (encAfter w din r)

/-- `Cipher(snap, W, Nr)` (R241). -/
def cipher (w : Vector Word 60) (nr : Nat) (din : Vector Word 4) : Grid :=
  encFinal w nr (encAfter w din (nr - 1))

/-- The initial step of decryption: AddRoundKey with the last four words of the schedule (R242). -/
def decInitial (w : Vector Word 60) (nr : Nat) (din : Vector Word 4) : Grid :=
  addRoundKey w (loadBlock din) (4 * nr)

/-- Round r of decryption (R242, R245). -/
def decRound (w : Vector Word 60) (nr r : Nat) (s : Grid) : Grid :=
  invMixColumns (addRoundKey w (invSubBytes (invShiftRows s)) (4 * (nr - r)))

/-- The final round of decryption, without InvMixColumns (R242, R246). -/
def decFinal (w : Vector Word 60) (s : Grid) : Grid := addRoundKey w (invSubBytes (invShiftRows s)) 0

/-- The grid after the initial step and rounds 1 to r of decryption. -/
def decAfter (w : Vector Word 60) (nr : Nat) (din : Vector Word 4) : Nat → Grid
  | 0 => decInitial w nr din
  | r + 1 => decRound w nr (r + 1) (decAfter w nr din r)

/-- `Decipher(snap, W, Nr)` (R242). -/
def decipher (w : Vector Word 60) (nr : Nat) (din : Vector Word 4) : Grid :=
  decFinal w (decAfter w nr din (nr - 1))

/-- FSM and ROUND of STATUS <- the given values; DIR stays. -/
def State.setPosition (s : State) (fsm : Fsm) (round : BitVec 4) : State :=
  { s with status := { s.status with fsm := fsm, round := round } }

/-- The step in INITIAL (R244). -/
def initialStep (p : Pending) (s : State) : State :=
  (s.withGrid
    (match s.status.dir with
     | .encrypt => encInitial s.sched p.snap.din
     | .decrypt => decInitial s.sched s.status.nr.toNat p.snap.din)).setPosition .round 1

/-- The step in ROUND, with ROUND = r (R245). -/
def roundStep (s : State) : State :=
  (s.mapGrid
    (match s.status.dir with
     | .encrypt => encRound s.sched s.status.round.toNat
     | .decrypt => decRound s.sched s.status.nr.toNat s.status.round.toNat)).setPosition
    (if s.status.round.toNat < s.status.nr.toNat - 1 then .round else .final)
    (if s.status.round.toNat < s.status.nr.toNat - 1 then s.status.round + 1 else s.status.nr)

/-- The step in FINAL, which is also the command's completion (R246). -/
def finalStep (p : Pending) (s : State) : State :=
  ((s.mapGrid
    (match s.status.dir with
     | .encrypt => encFinal s.sched s.status.nr.toNat
     | .decrypt => decFinal s.sched)).setPosition .done s.status.round).complete p.cmd .ok

/-- `sequencer_step()` (R114). In IDLE and DONE the sequencer has no transition but the issue of a command
(R247), and no accepted ENCRYPT or DECRYPT is in flight there: the state is held (log entry 10). -/
def sequencerStep (p : Pending) (s : State) : State :=
  match s.status.fsm with
  | .initial => initialStep p s
  | .round => roundStep s
  | .final => finalStep p s
  | .idle => s
  | .done => s

/-- One engine step of an ENCRYPT or DECRYPT (R114): a failed verdict fails in one step; an accepted
command takes its next sequencer step. -/
def runSequencer (s : State) : Host.Outcome State Fault Refusal :=
  match s.pending with
  | none => .next s
  | some p => if p.verdict = .ok then .next (sequencerStep p s) else .next (s.fail p.cmd p.verdict)

/-- ENCRYPT (R241), one engine step of it. -/
def execEncrypt (s : State) : Host.Outcome State Fault Refusal := runSequencer s

/-- DECRYPT (R242), one engine step of it. The direction is STATUS.DIR, set at issue (R243). -/
def execDecrypt (s : State) : Host.Outcome State Fault Refusal := runSequencer s

end Sys2Proof.Machine
end

