-- ==== Sys2Proof/Machine/Control.lean ====
section
/-! DEFINITION. NOP (40_command_protocol.md). -/

namespace Sys2Proof.Machine

/-- NOP (R120): only `complete(0)`. -/
def execNop (s : State) : Host.Outcome State Fault Refusal := runOnce (fun _ s => s) s

end Sys2Proof.Machine
end

