-- ==== Sys2Proof/Machine/Dispatch.lean ====
section
/-! DEFINITION. exec: the engine step of the command in flight, one arm per command (R114). -/

namespace Sys2Proof.Machine

def exec (i : Instr) (s : State) : Host.Outcome State Fault Refusal :=
  match i with
  | .nop => Sys2Proof.Machine.execNop s
  | .gfAdd a b => Sys2Proof.Machine.execGfAdd a b s
  | .gfXtime a => Sys2Proof.Machine.execGfXtime a s
  | .gfMul a b => Sys2Proof.Machine.execGfMul a b s
  | .sbox a => Sys2Proof.Machine.execSbox a s
  | .invSbox a => Sys2Proof.Machine.execInvSbox a s
  | .keyExpand => Sys2Proof.Machine.execKeyExpand s
  | .rotWord => Sys2Proof.Machine.execRotWord s
  | .subWord => Sys2Proof.Machine.execSubWord s
  | .rcon j => Sys2Proof.Machine.execRcon j s
  | .keyClear => Sys2Proof.Machine.execKeyClear s
  | .loadState => Sys2Proof.Machine.execLoadState s
  | .subBytes => Sys2Proof.Machine.execSubBytes s
  | .invSubBytes => Sys2Proof.Machine.execInvSubBytes s
  | .shiftRows => Sys2Proof.Machine.execShiftRows s
  | .invShiftRows => Sys2Proof.Machine.execInvShiftRows s
  | .mixColumns => Sys2Proof.Machine.execMixColumns s
  | .invMixColumns => Sys2Proof.Machine.execInvMixColumns s
  | .addRoundKey off => Sys2Proof.Machine.execAddRoundKey off s
  | .encrypt => Sys2Proof.Machine.execEncrypt s
  | .decrypt => Sys2Proof.Machine.execDecrypt s

end Sys2Proof.Machine
end

