-- ==== Sys2Proof/Machine/Engine.lean ====
section
/-! DEFINITION. The two agents' turns: the engine step (R114), which reads the command word of the pending
record, and what each event does. -/

namespace Sys2Proof.Machine

/-- One engine step (R114). The engine has a step only while BUSY = 1 (R20) and rst_n = 1 (R300);
otherwise the block holds its state (R290). A word that is no command completes with its verdict,
ILLEGAL_COMMAND (R96, R272). -/
def engineStep (s : State) : Host.Outcome State Fault Refusal :=
  if s.rstN then
    match s.pending with
    | none => .next s
    | some p =>
      match decode p.cmd with
      | .ok i => exec i s.tick
      | .error _ => .next (s.tick.fail p.cmd .illegalCommand)
  else .next s

/-- What one event does, once it has been taken off the list. -/
def runEvent (e : Event) (s : State) : Host.Outcome State Fault Refusal :=
  match e with
  | .engine => engineStep s
  | .read off width => busAccess off width (hostRead off) s
  | .write off width v => busAccess off width (fun s => (hostWrite off v s).tick) s
  | .rst level => .next (setRst level s.tick)

/-- The command word `v` just issued, with the engine's turn next: what the host's write to CMD leaves. -/
def fetchReady (v : Word) (s : State) : State :=
  issue v { s with rstN := true, events := .engine :: s.events }

end Sys2Proof.Machine
end

