-- ==== Sys2Proof/Machine/Step.lean ====
section
/-! DEFINITION. One step of the block: the next event, or, when none waits, the engine's step if it has
one (R20, R74; log entry 3). -/

namespace Sys2Proof.Machine

/-- One step of one agent. -/
def step (s : State) : Host.Outcome State Fault Refusal :=
  match s.events with
  | [] => engineStep s
  | e :: es => runEvent e { s with events := es }

/-- `s` with the command word `w` written to CMD in BUSY = 0 and the engine's turn next: this block
fetches nothing (R43); a command is the value of a CMD write (R78). Log entry 4. -/
def State.withFetchWord (s : State) (nbits w : Nat) : State :=
  fetchReady (BitVec.ofNat 32 (w % 2 ^ nbits)) s

end Sys2Proof.Machine
end

