-- ==== Sys2Proof/Machine/HostProgram.lean ====
section
/-! DEFINITION. The notation of 30_encoding.md section 4: how commands are written (R98), host programs
(R99), the pseudo-instructions and their expansions (R100), hex text (R70), and the turn of a host that
runs such a program. The block's own step does not depend on this file: a host program is one way to
choose the host's transactions (log entry 14). -/

namespace Sys2Proof.Machine

/-- The mnemonic of a command (R94). -/
def mnemonicOf : Instr → String
  | .nop => "NOP"
  | .gfAdd _ _ => "GF_ADD"
  | .gfXtime _ => "GF_XTIME"
  | .gfMul _ _ => "GF_MUL"
  | .sbox _ => "SBOX"
  | .invSbox _ => "INV_SBOX"
  | .keyExpand => "KEY_EXPAND"
  | .rotWord => "ROT_WORD"
  | .subWord => "SUB_WORD"
  | .rcon _ => "RCON"
  | .keyClear => "KEY_CLEAR"
  | .loadState => "LOAD_STATE"
  | .subBytes => "SUB_BYTES"
  | .invSubBytes => "INV_SUB_BYTES"
  | .shiftRows => "SHIFT_ROWS"
  | .invShiftRows => "INV_SHIFT_ROWS"
  | .mixColumns => "MIX_COLUMNS"
  | .invMixColumns => "INV_MIX_COLUMNS"
  | .addRoundKey _ => "ADD_ROUND_KEY"
  | .encrypt => "ENCRYPT"
  | .decrypt => "DECRYPT"

/-- The operands of a command in the order it is written, one for each field its format uses (R98). -/
def asmOperands (i : Instr) : List Nat :=
  match formatOf i with
  | .n => []
  | .a => [(operandA i).toNat]
  | .ab => [(operandA i).toNat, (operandB i).toNat]

/-- A line of a host program (R99). A label is the number of the line it stands at. -/
inductive HostLine where
  /-- `WR reg, v` -/
  | wr (r : Reg) (v : Word)
  /-- `RD reg` -/
  | rd (r : Reg)
  /-- `CMD command` -/
  | cmd (i : Instr)
  /-- `BNZ reg.field, label`, the field being `width` bits from bit `lo` of the register -/
  | bnz (r : Reg) (lo width : Nat) (label : Nat)
  deriving DecidableEq, Repr

/-- The pseudo-instructions (R100). Hex text is the list of its digits. -/
inductive Pseudo where
  | wait
  | exec (i : Instr)
  | setKey (hex : List (BitVec 4))
  | setBlk (hex : List (BitVec 4))
  | clrErr
  | round (off : Nat)
  | lastRound (off : Nat)
  | invRound (off : Nat)
  | invLastRound (off : Nat)
  deriving DecidableEq, Repr

/-- Hex text to words: eight digits make one big-endian word (R70). -/
def wordsOfHex : List (BitVec 4) → List Word
  | d0 :: d1 :: d2 :: d3 :: d4 :: d5 :: d6 :: d7 :: rest =>
    (d0 ++ d1 ++ d2 ++ d3 ++ d4 ++ d5 ++ d6 ++ d7) :: wordsOfHex rest
  | _ => []

/-- `WR` of each word to the registers KEY0, KEY1, … or DIN0, DIN1, … in order. -/
def writeBank (n : Nat) (reg : Fin n → Reg) (ws : List Word) : List HostLine :=
  (List.finRange n).filterMap fun k => (ws[k.val]?).map fun w => .wr (reg k) w

/-- The expansion of `WAIT`, whose label is the line number `line` it starts at (R100). -/
def expandWait (line : Nat) : List HostLine := [.rd .status, .bnz .status 0 1 line]

/-- The expansion of `EXEC` of each command in order, from line number `line` on (R100). -/
def expandExecs : Nat → List Instr → List HostLine
  | _, [] => []
  | line, i :: is => .cmd i :: (expandWait (line + 1) ++ expandExecs (line + 3) is)

/-- The expansion of a pseudo-instruction that starts at line number `line` (R100). -/
def expandPseudo (line : Nat) : Pseudo → List HostLine
  | .wait => expandWait line
  | .exec i => expandExecs line [i]
  | .setKey hex =>
    .wr .keylen (BitVec.ofNat 32 (hex.length / 2)) :: writeBank 8 Reg.key (wordsOfHex hex)
  | .setBlk hex => .wr .blklen 16 :: writeBank 4 Reg.din (wordsOfHex hex)
  | .clrErr => [.wr .status 0x0000000C]
  | .round off => expandExecs line [.subBytes, .shiftRows, .mixColumns, .addRoundKey off]
  | .lastRound off => expandExecs line [.subBytes, .shiftRows, .addRoundKey off]
  | .invRound off => expandExecs line [.invShiftRows, .invSubBytes, .addRoundKey off, .invMixColumns]
  | .invLastRound off => expandExecs line [.invShiftRows, .invSubBytes, .addRoundKey off]

/-- A host in the middle of its program: the line it is at, and what each RD last returned. -/
structure HostRun where
  lines : List HostLine
  line : Nat
  reads : List (Reg × Word)
  deriving DecidableEq, Repr

/-- The value the last `RD` of `r` returned; 0 when there was none. -/
def HostRun.lastRead (h : HostRun) (r : Reg) : Word := (h.reads.lookup r).getD 0

/-- The host's turn: its next line, one bus transaction or one branch of its own (R20, R99). A host past
its last line does nothing. -/
def hostTurn (h : HostRun) (s : State) : Host.Outcome (HostRun × State) Fault Refusal :=
  match h.lines[h.line]? with
  | none => .next (h, s)
  | some (.wr r v) => thenHost (fun _ => { h with line := h.line + 1 }) (runEvent (.write (regOffset r) 32 v) s)
  | some (.cmd i) =>
    thenHost (fun _ => { h with line := h.line + 1 }) (runEvent (.write (regOffset .cmd) 32 (encode i)) s)
  | some (.rd r) =>
    thenHost (fun t => { h with line := h.line + 1, reads := (r, t.busRdata) :: h.reads })
      (runEvent (.read (regOffset r) 32) s)
  | some (.bnz r lo width label) =>
    .next
      (if (h.lastRead r).extractLsb' lo width = 0 then { h with line := h.line + 1 }
       else { h with line := label }, s)
where
  /-- the host after a transaction that ended in block state `t` -/
  thenHost (f : State → HostRun) (o : Host.Outcome State Fault Refusal) :
      Host.Outcome (HostRun × State) Fault Refusal :=
    match o with
    | .next t => .next (f t, t)
    | .fault r => .fault r
    | .refused r => .refused r

end Sys2Proof.Machine
end

