-- ==== Sys2Proof/Safety.lean ====
section
/-! DEFINITION. What claims are stated in: a command in flight, what a completion leaves (R115), the
invariant of the block, and the runs that use no value left over from reset (R305). -/

namespace Sys2Proof.Machine

/-! ### A command in flight, and what completion leaves -/

/-- Command `i` is in flight, with pending record `p` (R41). -/
def InFlight (i : Instr) (s : State) (p : Pending) : Prop :=
  s.pending = some p ∧ decode p.cmd = .ok i

/-- Command `i` is in flight and its verdict is OK (R112, R275). -/
def Accepted (i : Instr) (s : State) (p : Pending) : Prop := InFlight i s p ∧ p.verdict = .ok

/-- `s` after the successful completion of a command other than ENCRYPT and DECRYPT: ERRCODE 0, FSM IDLE,
ROUND 0, BUSY 0, and nothing else (R115). -/
def afterSuccess (s : State) : State :=
  { s with pending := none, status := { s.status with errcode := .ok, fsm := .idle, round := 0 } }

/-- `s` after a completion with error `e`: ERRCODE e, ERR 1, FSM IDLE, ROUND 0, BUSY 0, and nothing else
(R115, R274). -/
def afterError (e : ErrCode) (s : State) : State :=
  { s with
    pending := none
    status := { s.status with errcode := e, err := true, fsm := .idle, round := 0 } }

/-- `s` with RESULT = v, marked as written since reset. -/
def resultIs (v : Word) (s : State) : State :=
  { s with result := v, written := { s.written with result := true } }

/-- An accepted ENCRYPT or DECRYPT is in flight: the sequencer is running (R247). -/
def cipherRunning (s : State) : Bool :=
  match s.pending with
  | none => false
  | some p => p.verdict == .ok && isCipherWord p.cmd

/-- Engine steps the command in flight still takes when it has just been issued (R116). -/
def stepsAtIssue (s : State) : Nat := if cipherRunning s then s.status.nr.toNat + 1 else 1

/-! ### The invariant -/

/-- NK, NR and KEY_VALID belong together, and a valid schedule is the expansion of some key (R33). -/
structure KeyInv (st : Status) (sched : Vector Word 60) : Prop where
  noKey : st.keyValid = false → st.nk = 0 ∧ st.nr = 0
  sizes : st.keyValid = true →
    (st.nk = 4 ∧ st.nr = 10) ∨ (st.nk = 6 ∧ st.nr = 12) ∨ (st.nk = 8 ∧ st.nr = 14)
  schedule : st.keyValid = true → ∃ key : Vector Word 8, ∀ i : Fin 60, i.val < 4 * (st.nr.toNat + 1) →
    sched[i] = (expand (keyBytes key st.nk.toNat) st.nk.toNat st.nr.toNat).getD i.val 0

/-- Where the sequencer stands while an accepted ENCRYPT or DECRYPT runs (R244 to R247). -/
def RunningPosition (st : Status) : Prop :=
  (st.fsm = .initial ∧ st.round = 0) ∨
  (st.fsm = .round ∧ 1 ≤ st.round.toNat ∧ st.round.toNat + 1 ≤ st.nr.toNat) ∨
  (st.fsm = .final ∧ st.round = st.nr)

/-- Where it stands otherwise (R38, R247). -/
def RestingPosition (st : Status) : Prop :=
  (st.fsm = .idle ∧ st.round = 0) ∨ (st.fsm = .done ∧ st.round = st.nr ∧ st.keyValid = true)

/-- The invariant of the block. -/
structure Inv (s : State) : Prop where
  key : KeyInv s.status s.sched
  /-- the verdict of the command in flight is the check's, and no later check would differ (R112) -/
  verdict : ∀ p, s.pending = some p →
    p.verdict = check p.cmd s.status.keyValid s.status.nr p.snap
  running : cipherRunning s = true →
    RunningPosition s.status ∧ ∀ p, s.pending = some p → s.status.dir = dirOfWord p.cmd
  resting : cipherRunning s = false → RestingPosition s.status
  /-- while rst_n = 0 the block is held in the reset state (R300) -/
  held : s.rstN = false → s.pending = none ∧ s.status = Status.reset ∧ s.regs = HostRegs.reset
  /-- the words of a valid schedule have been written since reset (R303; log entry 16) -/
  written : (s.status.keyValid = true → 4 * (s.status.nr.toNat + 1) ≤ s.written.sched) ∧
    s.written.sched ≤ 60

/-! ### Runs that use no value left over from reset (R305)

The spec gives the use of a never-written value the model treatment "fault UNWRITTEN" so that no proof
rests on reset contents. This model runs on, with the value log entry 1 names; a claim that wants the
spec's guarantee takes `stepUsesWritten` as a premise instead. -/

/-- The words of the schedule the next sequencer step XORs in start here (R244 to R246). -/
def sliceOffset (st : Status) : Nat :=
  match st.fsm, st.dir with
  | .initial, .encrypt => 0
  | .initial, .decrypt => 4 * st.nr.toNat
  | .round, .encrypt => 4 * st.round.toNat
  | .round, .decrypt => 4 * (st.nr.toNat - st.round.toNat)
  | .final, .encrypt => 4 * st.nr.toNat
  | .final, .decrypt => 0
  | .idle, _ => 0
  | .done, _ => 0

/-- Every word of a bank marked by `ws`, up to word `n`, has been written since reset. -/
def firstWritten {k : Nat} (ws : Vector Bool k) (n : Nat) : Bool :=
  (List.range n).all fun i => (ws[i]?).getD true

/-- What an accepted command uses has been written since reset (R305). -/
def usesWritten (i : Instr) (p : Pending) (s : State) : Bool :=
  match i with
  | .keyExpand => firstWritten p.snap.keyWritten (nkOfLen p.snap.keylen)
  | .rotWord => p.snap.opwWritten
  | .subWord => p.snap.opwWritten
  | .loadState => firstWritten p.snap.dinWritten 4
  | .subBytes => s.written.grid
  | .invSubBytes => s.written.grid
  | .shiftRows => s.written.grid
  | .invShiftRows => s.written.grid
  | .mixColumns => s.written.grid
  | .invMixColumns => s.written.grid
  | .addRoundKey off => s.written.grid && decide (off + 4 ≤ s.written.sched)
  | .encrypt => cipherUsesWritten p s
  | .decrypt => cipherUsesWritten p s
  | .nop => true
  | .gfAdd _ _ => true
  | .gfXtime _ => true
  | .gfMul _ _ => true
  | .sbox _ => true
  | .invSbox _ => true
  | .rcon _ => true
  | .keyClear => true
where
  /-- what the next sequencer step uses -/
  cipherUsesWritten (p : Pending) (s : State) : Bool :=
    decide (sliceOffset s.status + 4 ≤ s.written.sched) &&
      (if s.status.fsm = .initial then firstWritten p.snap.dinWritten 4 else s.written.grid)

/-- What the engine's next step uses has been written since reset. -/
def engineUsesWritten (s : State) : Bool :=
  match s.pending with
  | none => true
  | some p =>
    match decode p.cmd with
    | .error _ => true
    | .ok i => p.verdict != .ok || usesWritten i p s

/-- The register a host read returns has been written since reset, or is not one that starts unspecified,
or its value is free (R305, R310). -/
def readWritten (off : Nat) (s : State) : Bool :=
  match regAt off with
  | .opw => s.regs.opwWritten
  | .key k => s.regs.keyWritten[k]
  | .din k => s.regs.dinWritten[k]
  | .result => s.busy || s.written.result
  | .state _ => s.busy || s.written.grid
  | .sched i => s.busy || decide (i.val < s.written.sched)
  | .cmd => true
  | .status => true
  | .keylen => true
  | .blklen => true
  | .reserved => true

/-- What an event uses has been written since reset. -/
def eventUsesWritten (e : Event) (s : State) : Bool :=
  match e with
  | .engine => !s.rstN || engineUsesWritten s
  | .read off _ => !s.rstN || readWritten off s
  | .write _ _ _ => true
  | .rst _ => true

/-- The next step uses no value left over from reset. -/
def stepUsesWritten (s : State) : Bool :=
  match s.events with
  | [] => !s.rstN || engineUsesWritten s
  | e :: _ => eventUsesWritten e s

/-- Two banks of input registers that differ at most in registers not written since reset. -/
structure HostRegs.Agree (a b : HostRegs) : Prop where
  keylen : a.keylen = b.keylen
  blklen : a.blklen = b.blklen
  keyWritten : a.keyWritten = b.keyWritten
  dinWritten : a.dinWritten = b.dinWritten
  opwWritten : a.opwWritten = b.opwWritten
  key : ∀ k : Fin 8, a.keyWritten[k] = true → a.key[k] = b.key[k]
  din : ∀ k : Fin 4, a.dinWritten[k] = true → a.din[k] = b.din[k]
  opw : a.opwWritten = true → a.opw = b.opw

/-- Two pending records that differ at most in snapshot registers not written since reset. -/
structure Pending.Agree (a b : Pending) : Prop where
  cmd : a.cmd = b.cmd
  verdict : a.verdict = b.verdict
  snap : a.snap.Agree b.snap

/-- Two states that differ at most in data not written since reset (U1, U2). -/
structure State.Agree (s t : State) : Prop where
  rstN : s.rstN = t.rstN
  regs : s.regs.Agree t.regs
  status : s.status = t.status
  busy : s.busy = t.busy
  pending : ∀ p q, s.pending = some p → t.pending = some q → p.Agree q
  written : s.written = t.written
  result : s.written.result = true → s.result = t.result
  grid : s.written.grid = true → s.grid = t.grid
  sched : ∀ i : Fin 60, i.val < s.written.sched → s.sched[i] = t.sched[i]
  busRdata : s.busRdata = t.busRdata
  events : s.events = t.events
  epoch : s.epoch = t.epoch

/-- Two outcomes that agree: two next states that do, or the same stop. -/
def OutcomesAgree (a b : Host.Outcome State Fault Refusal) : Prop :=
  match a, b with
  | .next s, .next t => s.Agree t
  | .fault f, .fault g => f = g
  | .refused r, .refused q => r = q
  | _, _ => False

/-- An outcome's next state changed by `f`. -/
def mapNext (f : State → State) (o : Host.Outcome State Fault Refusal) :
    Host.Outcome State Fault Refusal :=
  match o with
  | .next s => .next (f s)
  | .fault r => .fault r
  | .refused r => .refused r

/-- The transitions of the sequencer state that R247 lists, and no change. -/
def SequencerMove (a b : Status) : Prop :=
  (a.fsm = b.fsm ∧ a.round = b.round) ∨
  ((a.fsm = .idle ∨ a.fsm = .done) ∧ b.fsm = .initial ∧ b.round = 0) ∨
  (a.fsm = .initial ∧ b.fsm = .round ∧ b.round = 1) ∨
  (a.fsm = .round ∧ b.fsm = .round ∧ a.round.toNat + 1 < a.nr.toNat ∧ b.round = a.round + 1) ∨
  (a.fsm = .round ∧ b.fsm = .final ∧ a.round.toNat + 1 = a.nr.toNat ∧ b.round = a.nr) ∨
  (a.fsm = .final ∧ b.fsm = .done ∧ b.round = a.round) ∨
  ((a.fsm = .idle ∨ a.fsm = .done) ∧ b.fsm = .idle ∧ b.round = 0)

end Sys2Proof.Machine
end

