-- ==== Sys2Proof/Certificates/Slice0/Obligations.lean ====
section
/-! DEFINITION. The statements about the model, for the provers: encodings and decoding, what each command
does and leaves, the command protocol, the bus, reset, the field and cipher laws, and the invariant. -/

open Sys2Proof Sys2Proof.Machine

/-! ### Encoding and decoding -/

/-- Words written out in 95_test_vectors.md 2.1 and 30_encoding.md R98 decode as they say; the illegal
ones are rejected. -/
def Obligations.SpecWordsDecodeAsListed : Prop :=
  decode 0x00000000 = .ok .nop ∧ decode 0x00835710 = .ok (.gfAdd 0x57 0x83) ∧
  decode 0x00005711 = .ok (.gfXtime 0x57) ∧ decode 0x00835712 = .ok (.gfMul 0x57 0x83) ∧
  decode 0x00005320 = .ok (.sbox 0x53) ∧ decode 0x0000ed21 = .ok (.invSbox 0xed) ∧
  decode 0x00000030 = .ok .keyExpand ∧ decode 0x00000031 = .ok .rotWord ∧
  decode 0x00000032 = .ok .subWord ∧ decode 0x00000d33 = .ok (.rcon 13) ∧
  decode 0x00000034 = .ok .keyClear ∧ decode 0x00000040 = .ok .loadState ∧
  decode 0x00000041 = .ok .subBytes ∧ decode 0x00000042 = .ok .invSubBytes ∧
  decode 0x00000043 = .ok .shiftRows ∧ decode 0x00000044 = .ok .invShiftRows ∧
  decode 0x00000045 = .ok .mixColumns ∧ decode 0x00000046 = .ok .invMixColumns ∧
  decode 0x00002847 = .ok (.addRoundKey 40) ∧ decode 0x00000050 = .ok .encrypt ∧
  decode 0x00000051 = .ok .decrypt ∧
  decode 0x00000100 = .error .unusedOperandNotZero ∧ decode 0x00000001 = .error .unassignedOpcode ∧
  decode 0x01000050 = .error .reservedNotZero ∧ decode 0x00015320 = .error .unusedOperandNotZero

/-- R98 with R95: every well-formed command, at every value of its operands, decodes from its word. -/
def Obligations.DecodeOfEncodeIsTheCommand : Prop :=
  ∀ i : Instr, i.wellFormed = true → decode (encode i) = .ok i

/-- R95, R96: a word has at most one meaning, and that command's encoding is the word. -/
def Obligations.EncodeOfDecodeIsTheWord : Prop :=
  ∀ (w : Word) (i : Instr), decode w = .ok i → encode i = w ∧ i.wellFormed = true

/-- R95: a word decodes to the command whose opcode and zero fields it has, with the word's A and B as
operands; equivalently it decodes exactly when a row of opcode_table.json matches it, and at most one
does. -/
def Obligations.DecodeIsTheMatchingTableRow : Prop :=
  (∀ (w : Word) (i : Instr), decode w = .ok i ↔
    i.wellFormed = true ∧ w &&& maskOf (formatOf i) = (opcodeOf i).setWidth 32 ∧
      operandA i = w.extractLsb' 8 8 ∧ operandB i = w.extractLsb' 16 8) ∧
  (∀ w : Word, (∃ i, decode w = .ok i) ↔ ∃ row ∈ opcodeTable, w &&& row.2 = row.1) ∧
  (∀ w : Word, (opcodeTable.filter fun row => rowMatches row w).length ≤ 1)

/-! ### Issue and verdict -/

/-- R110: what a write of `v` to CMD does while BUSY = 0, and that a failing command completes with its
error. -/
def Obligations.CmdWriteIssuesWhenIdle : Prop :=
  ∀ (s : State) (v : Word) (es : List Event),
    s.rstN = true → s.pending = none → s.events = .write 0x000 32 v :: es →
    ∃ t, step s = .next t ∧
      t.pending = some ⟨v, check v s.status.keyValid s.status.nr s.regs, s.regs⟩ ∧
      t.busy = true ∧
      t.status =
        (if check v s.status.keyValid s.status.nr s.regs = .ok ∧
            (v.extractLsb' 0 8 = 0x50#8 ∨ v.extractLsb' 0 8 = 0x51#8) then
          { s.status with
            fsm := .initial
            round := 0
            dir := if v.extractLsb' 0 8 = 0x50#8 then .encrypt else .decrypt }
        else s.status) ∧
      t = { s with events := es, epoch := s.epoch + 1, pending := t.pending, status := t.status } ∧
      (check v s.status.keyValid s.status.nr s.regs ≠ .ok →
        ∃ u, engineStep t = .next u ∧ u.busy = false ∧ u.status.err = true ∧
          u.status.errcode = check v s.status.keyValid s.status.nr s.regs)

/-- R113, R279: a write to CMD while BUSY = 1 sets OVR and does nothing else. -/
def Obligations.CmdWriteWhileBusyOnlySetsOvr : Prop :=
  ∀ (s : State) (v : Word) (es : List Event),
    s.rstN = true → s.busy = true → s.events = .write 0x000 32 v :: es →
    step s = .next { s with
      events := es, epoch := s.epoch + 1, status := { s.status with ovr := true } }

/-- R275: which verdict every word gets, for every key state and snapshot; so also which error is reported
when several apply, and that no other command raises one. -/
def Obligations.VerdictIsTheFirstApplicableError : Prop :=
  ∀ (v : Word) (kv : Bool) (nr : BitVec 4) (h : HostRegs),
    (check v kv nr h = .illegalCommand ↔ ∀ i, decode v ≠ .ok i) ∧
    (check v kv nr h = .invalidKeyLength ↔
      decode v = .ok .keyExpand ∧ h.keylen ≠ 16 ∧ h.keylen ≠ 24 ∧ h.keylen ≠ 32) ∧
    (check v kv nr h = .keyNotValid ↔
      kv = false ∧ (decode v = .ok .encrypt ∨ decode v = .ok .decrypt ∨
        ∃ off, decode v = .ok (.addRoundKey off))) ∧
    (check v kv nr h = .invalidBlockLength ↔
      h.blklen ≠ 16 ∧ (decode v = .ok .loadState ∨
        kv = true ∧ (decode v = .ok .encrypt ∨ decode v = .ok .decrypt))) ∧
    (check v kv nr h = .range ↔
      (∃ off, decode v = .ok (.addRoundKey off) ∧ kv = true ∧ off + 4 > 4 * (nr.toNat + 1)) ∨
      ∃ j, decode v = .ok (.rcon j) ∧ j > 13)

/-! ### Engine steps -/

/-- A step runs the command in flight: when the pending word decodes to `i`, the engine's turn is exec of
`i`, after the step has taken its event off the list and advanced the free value's index. -/
def Obligations.EngineTurnRunsTheDecodedCommand : Prop :=
  ∀ (i : Instr) (s : State) (p : Pending), s.rstN = true → InFlight i s p →
    (s.events = [] → step s = exec i { s with epoch := s.epoch + 1 }) ∧
    (∀ es, s.events = .engine :: es →
      step s = exec i { s with events := es, epoch := s.epoch + 1 })

/-- R96, R272: a word in flight that is no command completes with ILLEGAL_COMMAND in its one step, the engine's
turn being the next event or no event waiting. -/
def Obligations.IllegalWordCompletesWithIllegalCommand : Prop :=
  ∀ (s : State) (p : Pending), s.rstN = true → s.pending = some p → (∀ i, decode p.cmd ≠ .ok i) →
    (s.events = [] → step s = .next (afterError .illegalCommand { s with epoch := s.epoch + 1 })) ∧
    ∀ es, s.events = .engine :: es →
      step s = .next (afterError .illegalCommand { s with events := es, epoch := s.epoch + 1 })

/-- R274: a command whose verdict is an error, whichever error and command word it is, has one engine step:
it completes with that error and changes nothing else, but that INVALID_KEY_LENGTH clears KEY_VALID, NK and
NR (R276). -/
def Obligations.FailedCommandOnlyCompletes : Prop :=
  ∀ (s : State) (p : Pending), Inv s → s.pending = some p → p.verdict ≠ .ok →
    let kept : Status :=
      if p.verdict = .invalidKeyLength then { s.status with keyValid := false, nk := 0, nr := 0 }
      else s.status
    (∀ i, decode p.cmd = .ok i → exec i s = .next (afterError p.verdict { s with status := kept })) ∧
    (s.rstN = true → s.events = [] →
      step s = .next (afterError p.verdict { s with status := kept, epoch := s.epoch + 1 })) ∧
    ∀ es, s.rstN = true → s.events = .engine :: es →
      step s = .next (afterError p.verdict
        { s with status := kept, events := es, epoch := s.epoch + 1 })

/-- R276: KEY_EXPAND, and nothing else, fails with INVALID_KEY_LENGTH, exactly on the other lengths; W is
not written, and KEY_VALID, NK, NR become 0. -/
def Obligations.InvalidKeyLengthClearsTheKey : Prop :=
  (∀ (v : Word) (kv : Bool) (nr : BitVec 4) (h : HostRegs), check v kv nr h = .invalidKeyLength ↔
    v = 0x00000030 ∧ h.keylen ≠ 16 ∧ h.keylen ≠ 24 ∧ h.keylen ≠ 32) ∧
  ∀ (s : State) (p : Pending), InFlight .keyExpand s p → p.verdict = .invalidKeyLength →
    exec .keyExpand s = .next (afterError .invalidKeyLength
      { s with status := { s.status with keyValid := false, nk := 0, nr := 0 } })

/-- R120: an accepted NOP only completes. -/
def Obligations.NopOnlyCompletes : Prop :=
  ∀ (s : State) (p : Pending), Accepted .nop s p → exec .nop s = .next (afterSuccess s)

/-- R142 to R144: the field commands write their result, zero-extended, to RESULT, complete, and change
nothing else. -/
def Obligations.FieldCommandsWriteResult : Prop :=
  ∀ (a b : Byte) (s : State) (p : Pending),
    (Accepted (.gfAdd a b) s p →
      exec (.gfAdd a b) s = .next (afterSuccess (resultIs ((a ^^^ b).setWidth 32) s))) ∧
    (Accepted (.gfXtime a) s p →
      exec (.gfXtime a) s = .next (afterSuccess (resultIs
        ((if a.msb then (a <<< 1) ^^^ 0x1b#8 else a <<< 1).setWidth 32) s))) ∧
    (Accepted (.gfMul a b) s p →
      exec (.gfMul a b) s = .next (afterSuccess (resultIs ((multiply a b).setWidth 32) s)))

/-- R165, R166: the substitution commands write the table's entry, zero-extended, to RESULT, complete, and
change nothing else. -/
def Obligations.SubstitutionCommandsWriteResult : Prop :=
  ∀ (a : Byte) (s : State) (p : Pending),
    (Accepted (.sbox a) s p →
      exec (.sbox a) s = .next (afterSuccess (resultIs ((sboxRows.flatten.getD a.toNat 0).setWidth 32) s))) ∧
    (Accepted (.invSbox a) s p →
      exec (.invSbox a) s =
        .next (afterSuccess (resultIs ((invSboxRows.flatten.getD a.toNat 0).setWidth 32) s)))

/-- R186, R187: ROT_WORD and SUB_WORD work on the snapshot's OPW, write RESULT, complete, and change
nothing else. -/
def Obligations.WordCommandsWriteResult : Prop :=
  ∀ (s : State) (p : Pending),
    (Accepted .rotWord s p →
      exec .rotWord s = .next (afterSuccess (resultIs (p.snap.opw.rotateLeft 8) s))) ∧
    (Accepted .subWord s p →
      exec .subWord s = .next (afterSuccess (resultIs
        (subByte (p.snap.opw.extractLsb' 24 8) ++ subByte (p.snap.opw.extractLsb' 16 8) ++
          subByte (p.snap.opw.extractLsb' 8 8) ++ subByte (p.snap.opw.extractLsb' 0 8)) s)))

/-- R188, R180: RCON j, for every j its check accepts, writes x^j modulo the field polynomial, in the top
byte of RESULT, completes, and changes nothing else. -/
def Obligations.RconWritesPowerOfX : Prop :=
  ∀ (j : Nat) (s : State) (p : Pending), j ≤ 13 → Accepted (.rcon j) s p →
    exec (.rcon j) s = .next (afterSuccess (resultIs (((xtime^[j]) 0x01#8).setWidth 32 <<< 24) s))

/-- R184, R40: an accepted KEY_EXPAND writes W[0..4·Nr+3] with the expansion of the snapshot's key, leaves
the rest of W, sets NK, NR and KEY_VALID, completes, and changes nothing else. -/
def Obligations.KeyExpandWritesSchedule : Prop :=
  ∀ (s : State) (p : Pending) (nk nr : Nat), Accepted .keyExpand s p →
    (p.snap.keylen = 16 ∧ nk = 4 ∧ nr = 10 ∨ p.snap.keylen = 24 ∧ nk = 6 ∧ nr = 12 ∨
      p.snap.keylen = 32 ∧ nk = 8 ∧ nr = 14) →
    ∃ w : Vector Word 60,
      exec .keyExpand s = .next (afterSuccess { s with
        sched := w
        status := { s.status with
          keyValid := true, nk := BitVec.ofNat 4 nk, nr := BitVec.ofNat 4 nr }
        written := { s.written with sched := max s.written.sched (4 * (nr + 1)) } }) ∧
      ∀ i : Fin 60, w[i] =
        if i.val < 4 * (nr + 1) then (expand (keyBytes p.snap.key nk) nk nr).getD i.val 0 else s.sched[i]

/-- R183: the expansion of a key of 4·Nk bytes has exactly 4·(Nr+1) words; the first Nk are the key, and
each later one is W[i-Nk] XORed with what the rule makes of W[i-1]. -/
def Obligations.ExpansionFollowsTheRecurrence : Prop :=
  ∀ (k : List Byte) (nk nr : Nat),
    (nk = 4 ∧ nr = 10 ∨ nk = 6 ∧ nr = 12 ∨ nk = 8 ∧ nr = 14) → k.length = 4 * nk →
    (expand k nk nr).length = 4 * (nr + 1) ∧
    (∀ i, i < nk → (expand k nk nr).getD i 0 =
      k.getD (4 * i) 0 ++ k.getD (4 * i + 1) 0 ++ k.getD (4 * i + 2) 0 ++ k.getD (4 * i + 3) 0) ∧
    (∀ i, nk ≤ i → i < 4 * (nr + 1) → (expand k nk nr).getD i 0 =
      (expand k nk nr).getD (i - nk) 0 ^^^
        (if i % nk = 0 then
          subWord (rotWord ((expand k nk nr).getD (i - 1) 0)) ^^^ rcon (i / nk - 1)
        else if nk > 6 ∧ i % nk = 4 then subWord ((expand k nk nr).getD (i - 1) 0)
        else (expand k nk nr).getD (i - 1) 0))

/-- R189: KEY_CLEAR clears KEY_VALID, NK and NR, completes, and changes nothing else: W, KEY and the grid
stay. -/
def Obligations.KeyClearEndsTheInstance : Prop :=
  ∀ (s : State) (p : Pending), Accepted .keyClear s p →
    exec .keyClear s = .next (afterSuccess
      { s with status := { s.status with keyValid := false, nk := 0, nr := 0 } })

/-- R212: LOAD_STATE fills the grid from the snapshot's DIN, byte i at row i mod 4, column i div 4, so that
column c is DINc; it completes and changes nothing else. -/
def Obligations.LoadStateFillsTheGrid : Prop :=
  ∀ (s : State) (p : Pending), Accepted .loadState s p →
    ∃ g : Grid, exec .loadState s = .next (afterSuccess
        { s with grid := g, written := { s.written with grid := true } }) ∧
      (∀ r c : Fin 4, g.get r c = p.snap.din[c].extractLsb' (24 - 8 * r.val) 8) ∧
      ∀ c : Fin 4, g.stateWord c = p.snap.din[c]

/-- R213 to R216: the byte and row transforms: every byte of the new grid, completion, and nothing else. -/
def Obligations.ByteAndRowTransformsMapTheGrid : Prop :=
  ∀ (s : State) (p : Pending),
    (Accepted .subBytes s p → ∃ g : Grid, exec .subBytes s = .next (afterSuccess { s with grid := g }) ∧
      ∀ r c : Fin 4, g.get r c = subByte (s.grid.get r c)) ∧
    (Accepted .invSubBytes s p → ∃ g : Grid,
      exec .invSubBytes s = .next (afterSuccess { s with grid := g }) ∧
      ∀ r c : Fin 4, g.get r c = invSubByte (s.grid.get r c)) ∧
    (Accepted .shiftRows s p → ∃ g : Grid, exec .shiftRows s = .next (afterSuccess { s with grid := g }) ∧
      ∀ r c d : Fin 4, d.val = (c.val + r.val) % 4 → g.get r c = s.grid.get r d) ∧
    (Accepted .invShiftRows s p → ∃ g : Grid,
      exec .invShiftRows s = .next (afterSuccess { s with grid := g }) ∧
      ∀ r c d : Fin 4, d.val = (c.val + 4 - r.val) % 4 → g.get r c = s.grid.get r d)

/-- R217 to R220: the column transforms: every byte of the new grid as the matrix product says, completion,
and nothing else. -/
def Obligations.ColumnTransformsMultiplyByTheMatrix : Prop :=
  ∀ (s : State) (p : Pending),
    (Accepted .mixColumns s p → ∃ g : Grid,
      exec .mixColumns s = .next (afterSuccess { s with grid := g }) ∧
      ∀ r c k1 k2 k3 : Fin 4, k1 = r + 1 → k2 = r + 2 → k3 = r + 3 →
        g.get r c = multiply 0x02 (s.grid.get r c) ^^^ multiply 0x03 (s.grid.get k1 c) ^^^
          s.grid.get k2 c ^^^ s.grid.get k3 c) ∧
    (Accepted .invMixColumns s p → ∃ g : Grid,
      exec .invMixColumns s = .next (afterSuccess { s with grid := g }) ∧
      ∀ r c k1 k2 k3 : Fin 4, k1 = r + 1 → k2 = r + 2 → k3 = r + 3 →
        g.get r c = multiply 0x0e (s.grid.get r c) ^^^ multiply 0x0b (s.grid.get k1 c) ^^^
          multiply 0x0d (s.grid.get k2 c) ^^^ multiply 0x09 (s.grid.get k3 c))

/-- R222: ADD_ROUND_KEY XORs W[off..off+3] into the columns, completes, and changes nothing else. The
slice lies inside W whenever the check of the command accepted it (`VerdictIsTheFirstApplicableError`
with `InvariantKeptByEveryStep`). -/
def Obligations.AddRoundKeyXorsTheSlice : Prop :=
  ∀ (off : Nat) (s : State) (p : Pending), off + 4 ≤ 60 → Accepted (.addRoundKey off) s p →
    ∃ g : Grid, exec (.addRoundKey off) s = .next (afterSuccess { s with grid := g }) ∧
      ∀ (c : Fin 4) (i : Fin 60), i.val = off + c.val →
        g.stateWord c = s.grid.stateWord c ^^^ s.sched[i]

/-! ### The sequencer -/

/-- R244: the step of an accepted ENCRYPT or DECRYPT in INITIAL. -/
def Obligations.SequencerInitialStep : Prop :=
  ∀ (i : Instr) (s : State) (p : Pending), i = .encrypt ∨ i = .decrypt → Accepted i s p →
    s.status.fsm = .initial →
    exec i s = .next { s with
      grid := if s.status.dir = .encrypt then addRoundKey s.sched (loadBlock p.snap.din) 0
        else addRoundKey s.sched (loadBlock p.snap.din) (4 * s.status.nr.toNat)
      written := { s.written with grid := true }
      status := { s.status with round := 1, fsm := .round } }

/-- R245: the step in ROUND with ROUND = r, 1 ≤ r ≤ NR-1. -/
def Obligations.SequencerRoundStep : Prop :=
  ∀ (i : Instr) (s : State) (p : Pending) (r : Nat), i = .encrypt ∨ i = .decrypt → Accepted i s p →
    s.status.fsm = .round → s.status.round.toNat = r → 1 ≤ r → r ≤ s.status.nr.toNat - 1 →
    exec i s = .next { s with
      grid := if s.status.dir = .encrypt then
          addRoundKey s.sched (mixColumns (shiftRows (subBytes s.grid))) (4 * r)
        else invMixColumns
          (addRoundKey s.sched (invSubBytes (invShiftRows s.grid)) (4 * (s.status.nr.toNat - r)))
      status := { s.status with
        round := if r < s.status.nr.toNat - 1 then BitVec.ofNat 4 (r + 1) else s.status.nr
        fsm := if r < s.status.nr.toNat - 1 then .round else .final } }

/-- R246: the step in FINAL, with ROUND = NR, which is also the command's completion. -/
def Obligations.SequencerFinalStep : Prop :=
  ∀ (i : Instr) (s : State) (p : Pending), i = .encrypt ∨ i = .decrypt → Accepted i s p →
    s.status.fsm = .final → s.status.round = s.status.nr →
    exec i s = .next { s with
      grid := if s.status.dir = .encrypt then
          addRoundKey s.sched (shiftRows (subBytes s.grid)) (4 * s.status.nr.toNat)
        else addRoundKey s.sched (invSubBytes (invShiftRows s.grid)) 0
      pending := none
      status := { s.status with fsm := .done, round := s.status.nr, errcode := .ok } }

/-- R248 with R241, R242, R116: an ENCRYPT or DECRYPT just issued, in a state that meets the invariant and
with no host transaction waiting, takes exactly NR + 1 engine steps; they leave Cipher or Decipher of the
snapshot's block in the grid, FSM = DONE, ROUND = NR, ERRCODE 0, and every other register as it was. The
fields `epoch` (log entry 2) and `written` (log entry 16) are the model's own. -/
def Obligations.SequencerComputesTheCipher : Prop :=
  ∀ (i : Instr) (s : State) (p : Pending), i = .encrypt ∨ i = .decrypt → Inv s → s.rstN = true →
    s.events = [] → Accepted i s p → s.status.fsm = .initial →
    (∀ k, k ≤ s.status.nr.toNat → ∃ u, Host.Core.run core k s = .next u ∧ u.busy = true) ∧
    Host.Core.run core (s.status.nr.toNat + 1) s = .next { s with
      grid := if i = .encrypt then cipher s.sched s.status.nr.toNat p.snap.din
        else decipher s.sched s.status.nr.toNat p.snap.din
      written := { s.written with grid := true }
      pending := none
      status := { s.status with errcode := .ok, fsm := .done, round := s.status.nr }
      epoch := s.epoch + (s.status.nr.toNat + 1) }

/-- R319: every issued command completes after a number of engine steps that depends on its opcode, its
verdict and NR alone, the counts being those of R116: one, or NR + 1 for an accepted ENCRYPT or DECRYPT. BUSY
is 1 until then. -/
def Obligations.EveryCommandCompletesInItsStepCount : Prop :=
  ∀ s : State, Inv s → s.rstN = true → s.events = [] → s.busy = true →
    (cipherRunning s = true → s.status.fsm = .initial) →
    (∀ k, k < stepsAtIssue s → ∃ u, Host.Core.run core k s = .next u ∧ u.busy = true) ∧
    ∃ t, Host.Core.run core (stepsAtIssue s) s = .next t ∧ t.busy = false

/-- R247: in a state that meets the invariant, a step that is not a reset moves the sequencer by a listed
transition or not at all; while an accepted ENCRYPT or DECRYPT runs, FSM is INITIAL, ROUND or FINAL, and
NR does not change. -/
def Obligations.SequencerTransitionsAreTheListedOnes : Prop :=
  ∀ s t : State, Inv s → step s = .next t → (∀ es, s.events ≠ .rst false :: es) →
    SequencerMove s.status t.status ∧
    (cipherRunning s = true →
      (s.status.fsm = .initial ∨ s.status.fsm = .round ∨ s.status.fsm = .final) ∧
        t.status.nr = s.status.nr)

/-! ### The host's side -/

/-- R63, R66: a host read of any register puts its value on bus_rdata and changes nothing else; so two
reads of one register in a row return the same value. CMD and reserved offsets read 0. -/
def Obligations.HostReadHasNoSideEffect : Prop :=
  ∀ (s : State) (off : Nat) (es : List Event), off % 4 = 0 → off < 512 →
    s.events = .read off 32 :: es → s.rstN = true →
    step s = .next { s with busRdata := readValue off s, events := es } ∧
    (∀ t, step s = .next t → readValue off t = readValue off s) ∧
    (regAt off = .cmd ∨ regAt off = .reserved → readValue off s = 0)

/-- R22 to R31, R62: what each register of the window reads as: STATUS whether BUSY is 0 or 1 (R310), the
others while BUSY = 0. -/
def Obligations.ReadsReturnTheRegisters : Prop :=
  (∀ s : State, readValue 0x004 s = statusWord s.pending.isSome s.status) ∧
  ∀ s : State, s.pending = none →
    readValue 0x008 s = s.regs.keylen.setWidth 32 ∧ readValue 0x00C s = s.regs.blklen.setWidth 32 ∧
    readValue 0x010 s = s.regs.opw ∧ readValue 0x014 s = s.result ∧
    (∀ k : Fin 8, readValue (0x020 + 4 * k.val) s = s.regs.key[k]) ∧
    (∀ k : Fin 4, readValue (0x040 + 4 * k.val) s = s.regs.din[k]) ∧
    (∀ c : Fin 4, readValue (0x050 + 4 * c.val) s =
      s.grid.get 0 c ++ s.grid.get 1 c ++ s.grid.get 2 c ++ s.grid.get 3 c) ∧
    (∀ i : Fin 60, readValue (0x100 + 4 * i.val) s = s.sched[i]) ∧
    (∀ off, off % 4 = 0 → (off = 0x000 ∨ 0x018 ≤ off ∧ off < 0x020 ∨ 0x060 ≤ off ∧ off < 0x100 ∨
      0x1F0 ≤ off ∧ off < 0x200) → readValue off s = 0)

/-- R31, R271: every field of STATUS at its bits, with the code of every ERRCODE and FSM value, and the
reserved bits 0. -/
def Obligations.StatusWordHoldsItsFields : Prop :=
  ∀ (busy : Bool) (st : Status),
    (statusWord busy st).getLsbD 0 = busy ∧ (statusWord busy st).getLsbD 1 = st.keyValid ∧
    (statusWord busy st).getLsbD 2 = st.err ∧ (statusWord busy st).getLsbD 3 = st.ovr ∧
    (statusWord busy st).extractLsb' 4 4 = 0 ∧
    (statusWord busy st).extractLsb' 8 4 =
      (match st.errcode with
       | .ok => 0
       | .invalidKeyLength => 1
       | .invalidBlockLength => 2
       | .illegalCommand => 4
       | .keyNotValid => 5
       | .range => 6) ∧
    (statusWord busy st).extractLsb' 12 4 = 0 ∧
    (statusWord busy st).extractLsb' 16 4 = st.nk ∧ (statusWord busy st).extractLsb' 20 4 = st.nr ∧
    (statusWord busy st).extractLsb' 24 3 =
      (match st.fsm with
       | .idle => 0
       | .initial => 1
       | .round => 2
       | .final => 3
       | .done => 4) ∧
    (statusWord busy st).getLsbD 27 =
      (match st.dir with
       | .encrypt => false
       | .decrypt => true) ∧
    (statusWord busy st).extractLsb' 28 4 = st.round

/-- R64, R74: a step whose event is a host write performs that write, and advances the free value's index
(log entry 2). After it an input register reads as what was written (the low byte for KEYLEN and BLKLEN),
whether BUSY is 0 or 1, and every other register of the window reads as before; of RESULT, STATE and SCHED this
is said for BUSY = 0 only, since they read as any value while BUSY = 1 (R310). -/
def Obligations.WrittenInputReadsBackAndAloneChanges : Prop :=
  ∀ (s : State) (off : Nat) (v : Word) (es : List Event), s.rstN = true → off % 4 = 0 → off < 512 →
    s.events = .write off 32 v :: es →
    ∃ t, step s = .next t ∧ t = (hostWrite off v { s with events := es }).tick ∧
      ((off = 0x008 ∨ off = 0x00C) → readValue off t = (v.extractLsb' 0 8).setWidth 32) ∧
      ((off = 0x010 ∨ 0x020 ≤ off ∧ off < 0x050) → readValue off t = v) ∧
      ((off = 0x008 ∨ off = 0x00C ∨ off = 0x010 ∨ 0x020 ≤ off ∧ off < 0x050) →
        ∀ a, a % 4 = 0 → a < 512 → a ≠ off →
          (s.busy = true → a ≠ 0x014 ∧ ¬(0x050 ≤ a ∧ a < 0x060) ∧ ¬(0x100 ≤ a ∧ a < 0x1F0)) →
          readValue a t = readValue a s)

/-- R64, R37: writes to read-only registers and reserved offsets have no effect; a write to STATUS clears
ERR with bit 2 and OVR with bit 3 and has no other effect. So does the step that performs such a write, but that
it takes the event off the list and advances the free value's index (log entries 2 and 3). -/
def Obligations.OtherWritesHaveNoOtherEffect : Prop :=
  ∀ (s : State) (v : Word) (es : List Event), s.rstN = true →
    (∀ off, off % 4 = 0 → (off = 0x014 ∨ 0x018 ≤ off ∧ off < 0x020 ∨ 0x050 ≤ off ∧ off < 0x200) →
      hostWrite off v s = s ∧
      (s.events = .write off 32 v :: es →
        step s = .next { s with events := es, epoch := s.epoch + 1 })) ∧
    hostWrite 0x004 v s = { s with status := { s.status with
      err := s.status.err && !v.getLsbD 2, ovr := s.status.ovr && !v.getLsbD 3 } } ∧
    (s.events = .write 0x004 32 v :: es →
      step s = .next { s with
        events := es
        epoch := s.epoch + 1
        status := { s.status with
          err := s.status.err && !v.getLsbD 2, ovr := s.status.ovr && !v.getLsbD 3 } })

/-- R65, R61, U8: an access that the port cannot carry is refused, and one outside the window faults; every
other host access goes through. The refusal's and the fault's names are the model's (log entry 7). -/
def Obligations.OnlyImpossibleAccessesStop : Prop :=
  ∀ (s : State) (off width : Nat) (v : Word) (es : List Event),
    (s.events = .read off width :: es ∨ s.events = .write off width v :: es) →
    (width ≠ 32 ∨ off % 4 ≠ 0 → step s = .refused .accessNotPresentable) ∧
    (width = 32 → off % 4 = 0 → 512 ≤ off → step s = .fault .outsideWindow) ∧
    (width = 32 → off % 4 = 0 → off < 512 → ∃ t, step s = .next t)

/-- No command stops, whatever its operands and the state. -/
def Obligations.NoCommandStops : Prop :=
  ∀ (i : Instr) (s : State), ∃ t, exec i s = .next t

/-- The model's form of R46, R248 and R310: while BUSY = 1 a host read cannot tell two states apart that
differ only in RESULT, the grid and W. The spec leaves the value of such a read open (U3), and a device may
return the old register; that it depends on the offset and the step alone is the model's choice of the
arguments of the free value, log entry 2. -/
def Obligations.BusyReadsDoNotShowResults : Prop :=
  ∀ (s : State) (v : Word) (g : Grid) (w : Vector Word 60) (off : Nat), s.busy = true →
    readValue off { s with result := v, grid := g, sched := w } = readValue off s

/-- R111, R313: host writes to KEY, KEYLEN, BLKLEN, DIN and OPW do not change what the command in flight
does: writing before its engine step or after it leaves the same state. -/
def Obligations.InputWritesDoNotDisturbTheCommand : Prop :=
  ∀ (i : Instr) (s : State) (off : Nat) (v : Word),
    off = 0x008 ∨ off = 0x00C ∨ off = 0x010 ∨ (0x020 ≤ off ∧ off < 0x050) →
    exec i (hostWrite off v s) = mapNext (hostWrite off v) (exec i s)

/-- R22, R25, R26: an engine step writes no input register; nor does it touch the pin, the port or the
inputs still to come. -/
def Obligations.EngineLeavesTheHostsRegisters : Prop :=
  ∀ (i : Instr) (s t : State), exec i s = .next t →
    t.regs = s.regs ∧ t.rstN = s.rstN ∧ t.busRdata = s.busRdata ∧ t.events = s.events ∧
      t.epoch = s.epoch

/-! ### Whole-machine rules -/

/-- R32: BUSY is set by the issue of a command, a CMD write while it is 0, and cleared by its completion, an
engine step of it, or by reset; by nothing else. -/
def Obligations.BusyChangesOnlyAtIssueCompletionAndReset : Prop :=
  ∀ s t : State, step s = .next t →
    (s.rstN = true → (∃ v es, s.events = .write 0x000 32 v :: es) → t.busy = true) ∧
    (s.busy = false → t.busy = true → ∃ v es, s.events = .write 0x000 32 v :: es ∧ s.rstN = true) ∧
    (s.busy = true → t.busy = false →
      (∃ es, s.events = .rst false :: es) ∨
      (s.rstN = true ∧ (s.events = [] ∨ ∃ es, s.events = .engine :: es)))

/-- R34: ERR is set exactly at a completion with an error code, and cleared only by a STATUS write with
bit 2 = 1 or by reset; a write with bit 2 = 0 leaves it. -/
def Obligations.ErrIsSticky : Prop :=
  ∀ s t : State, step s = .next t →
    (s.busy = true → t.busy = false → t.status.errcode ≠ .ok → t.status.err = true) ∧
    (s.status.err = false → t.status.err = true →
      s.busy = true ∧ t.busy = false ∧ t.status.errcode ≠ .ok) ∧
    (s.status.err = true → t.status.err = false →
      (∃ v es, s.events = .write 0x004 32 v :: es ∧ v.getLsbD 2 = true) ∨
      ∃ es, s.events = .rst false :: es)

/-- R35: OVR is set when the host writes CMD while BUSY = 1, and cleared only by a STATUS write with bit 3
= 1 or by reset; a write with bit 3 = 0 leaves it. -/
def Obligations.OvrIsSticky : Prop :=
  ∀ s t : State, step s = .next t →
    (s.rstN = true → s.busy = true → (∃ v es, s.events = .write 0x000 32 v :: es) →
      t.status.ovr = true) ∧
    (s.status.ovr = false → t.status.ovr = true →
      s.busy = true ∧ ∃ v es, s.events = .write 0x000 32 v :: es) ∧
    (s.status.ovr = true → t.status.ovr = false →
      (∃ v es, s.events = .write 0x004 32 v :: es ∧ v.getLsbD 3 = true) ∨
      ∃ es, s.events = .rst false :: es)

/-- R36: ERRCODE is written at every completion and at nothing else but reset; so while BUSY = 1 it holds
the outcome of the previous command. -/
def Obligations.ErrcodeChangesOnlyAtCompletion : Prop :=
  ∀ s t : State, Inv s → step s = .next t →
    (t.status.errcode ≠ s.status.errcode →
      (s.busy = true ∧ t.busy = false) ∨ ∃ es, s.events = .rst false :: es) ∧
    (∀ p, s.pending = some p → t.busy = false → (∀ es, s.events ≠ .rst false :: es) →
      t.status.errcode = p.verdict)

/-- R33, R314: KEY_VALID, NK and NR change only at the completion of KEY_EXPAND or KEY_CLEAR, and at reset;
in particular no host write changes them. -/
def Obligations.KeyFieldsChangeOnlyByKeyCommands : Prop :=
  ∀ s t : State, Inv s → step s = .next t → (∀ es, s.events ≠ .rst false :: es) →
    (t.status.keyValid ≠ s.status.keyValid ∨ t.status.nk ≠ s.status.nk ∨ t.status.nr ≠ s.status.nr) →
    ∃ p, s.pending = some p ∧ t.pending = none ∧
      ((decode p.cmd = .ok .keyExpand ∧ p.verdict = .ok ∧ t.status.keyValid = true) ∨
       (decode p.cmd = .ok .keyExpand ∧ p.verdict = .invalidKeyLength ∧ t.status.keyValid = false) ∨
       (decode p.cmd = .ok .keyClear ∧ t.status.keyValid = false))

/-- R40: KEY_EXPAND writes W[0..4·NR+3] and leaves the rest; nothing else writes W (reset apart, after
which W is unspecified). -/
def Obligations.OnlyKeyExpandWritesTheSchedule : Prop :=
  ∀ s t : State, step s = .next t → (∀ es, s.events ≠ .rst false :: es) → t.sched ≠ s.sched →
    ∃ p, Accepted .keyExpand s p ∧
      (legalKeyLen p.snap.keylen = true → ∀ i : Fin 60, 4 * (t.status.nr.toNat + 1) ≤ i.val →
        t.sched[i] = s.sched[i])

/-- R27, R39: only the eight result commands write RESULT, and only LOAD_STATE, the transforms, ENCRYPT and
DECRYPT write the grid; each only when accepted (reset apart, after which both are unspecified). -/
def Obligations.OnlyTheirCommandsWriteResultAndGrid : Prop :=
  ∀ s t : State, step s = .next t → (∀ es, s.events ≠ .rst false :: es) →
    (t.result ≠ s.result → ∃ p i, Accepted i s p ∧
      ((∃ a b, i = .gfAdd a b) ∨ (∃ a, i = .gfXtime a) ∨ (∃ a b, i = .gfMul a b) ∨ (∃ a, i = .sbox a) ∨
       (∃ a, i = .invSbox a) ∨ i = .rotWord ∨ i = .subWord ∨ ∃ j, i = .rcon j)) ∧
    (t.grid ≠ s.grid → ∃ p i, Accepted i s p ∧
      (i = .loadState ∨ i = .subBytes ∨ i = .invSubBytes ∨ i = .shiftRows ∨ i = .invShiftRows ∨
       i = .mixColumns ∨ i = .invMixColumns ∨ (∃ off, i = .addRoundKey off) ∨ i = .encrypt ∨
       i = .decrypt))

/-! ### The invariant, reset, and values left over from reset -/

/-- The invariant holds right after reset. -/
def Obligations.InvariantAtReset : Prop := Inv State.reset

/-- R33, R112, R247, R300: every step, whatever the host does, keeps the invariant. -/
def Obligations.InvariantKeptByEveryStep : Prop :=
  ∀ s t : State, Inv s → step s = .next t → Inv t

/-- R45, R300: a step whose event drives rst_n does so, and a rise of rst_n changes no register. After reset,
and after any fall and rise of rst_n from any state, STATUS reads 0x00000000, KEYLEN and BLKLEN are 0, no command
is pending, and no data register, grid or schedule word counts as written (log entry 16). -/
def Obligations.ResetLeavesTheStatedValues : Prop :=
  (∀ (s : State) (level : Bool) (es : List Event), s.events = .rst level :: es →
    step s = .next (setRst level { s with events := es, epoch := s.epoch + 1 })) ∧
  (∀ (s : State) (es : List Event), s.events = .rst true :: es →
    step s = .next { s with rstN := true, events := es, epoch := s.epoch + 1 }) ∧
  ∀ s t : State, (t = State.reset ∨ t = setRst true (setRst false s)) →
    t.rstN = true ∧ t.pending = none ∧ readValue 0x004 t = 0 ∧ t.regs.keylen = 0 ∧ t.regs.blklen = 0 ∧
    (∀ k : Fin 8, t.regs.keyWritten[k] = false) ∧ (∀ k : Fin 4, t.regs.dinWritten[k] = false) ∧
    t.regs.opwWritten = false ∧ t.written = ⟨false, false, 0⟩

/-- R300: while rst_n = 0, a host write has no effect, a read returns 0, and the engine has no step; a fall
of rst_n, in any state, leaves STATUS at its reset value and abandons the command in flight. -/
def Obligations.HeldInResetNothingHappens : Prop :=
  (∀ (s : State) (es : List Event) (off : Nat) (v : Word), s.rstN = false → off % 4 = 0 → off < 512 →
    (s.events = .write off 32 v :: es → step s = .next { s with events := es, epoch := s.epoch + 1 }) ∧
    (s.events = .read off 32 :: es → step s = .next { s with events := es, busRdata := 0 }) ∧
    (s.events = .engine :: es → step s = .next { s with events := es }) ∧
    (s.events = [] → step s = .next s)) ∧
  ∀ (s : State) (es : List Event), s.events = .rst false :: es →
    ∃ t, step s = .next t ∧ t.rstN = false ∧ t.pending = none ∧ t.status = Status.reset ∧ t.events = es

/-- R302: right after reset the key and block commands fail with the errors the rule names, for every
operand; the others are accepted unless their own operand is out of range. -/
def Obligations.AfterResetOnlyKeylessCommandsAreAccepted : Prop :=
  ∀ (v : Word) (i : Instr) (e : ErrCode), decode v = .ok i →
    check v State.reset.status.keyValid State.reset.status.nr State.reset.regs = e →
    (e = .keyNotValid ↔ i = .encrypt ∨ i = .decrypt ∨ ∃ off, i = .addRoundKey off) ∧
    (e = .invalidKeyLength ↔ i = .keyExpand) ∧
    (e = .invalidBlockLength ↔ i = .loadState) ∧
    (e = .range ↔ ∃ j, i = .rcon j ∧ j > 13) ∧
    e ≠ .illegalCommand

/-- R305, U1, U2 (the model's form, log entries 1 and 16): two states that differ only in data not written
since reset stay so, and stop alike, for as long as no step uses such data. So no claim about such runs
rests on the values the model gives unspecified storage at reset. -/
def Obligations.UnwrittenDataNeverMatters : Prop :=
  ∀ s t : State, s.Agree t → stepUsesWritten s = true → OutcomesAgree (step s) (step t)

/-! ### The field, the tables and the cipher -/

/-- R147: the field laws. -/
def Obligations.MultiplyObeysTheFieldLaws : Prop :=
  (∀ a b : Byte, multiply a b = multiply b a) ∧
  (∀ a b c : Byte, multiply (multiply a b) c = multiply a (multiply b c)) ∧
  (∀ a b c : Byte, multiply a (gfAdd b c) = gfAdd (multiply a b) (multiply a c)) ∧
  (∀ a : Byte, multiply a 0 = 0 ∧ multiply 0 a = 0 ∧ multiply a 1 = a) ∧
  (∀ b : Byte, xtime b = multiply b 0x02)

/-- R148: eight doublings multiply by 0x1b, and do not return the byte. -/
def Obligations.EightDoublingsMultiplyBy1b : Prop :=
  (∀ b : Byte, (xtime^[8]) b = multiply b 0x1b) ∧ (xtime^[8]) (1 : Byte) ≠ 1

/-- R146, R14: multiply is the product of the polynomials its operands denote, reduced modulo
x^8+x^4+x^3+x+1. -/
def Obligations.MultiplyIsTheProductModuloTheFieldPolynomial : Prop :=
  let poly : Byte → Polynomial (ZMod 2) := fun v =>
    ∑ i ∈ Finset.range 8, if v.getLsbD i then (Polynomial.X : Polynomial (ZMod 2)) ^ i else 0
  let m : Polynomial (ZMod 2) :=
    Polynomial.X ^ 8 + Polynomial.X ^ 4 + Polynomial.X ^ 3 + Polynomial.X + 1
  ∀ a b : Byte, m ∣ poly (multiply a b) - poly a * poly b

/-- R162: the S-box is the affine map of the field inverse, which is unique, with inv(0) = 0. -/
def Obligations.SboxIsAffineOfTheInverse : Prop :=
  let affine : Byte → Byte := fun c =>
    c ^^^ c.rotateLeft 1 ^^^ c.rotateLeft 2 ^^^ c.rotateLeft 3 ^^^ c.rotateLeft 4 ^^^ 0x63#8
  subByte 0 = affine 0 ∧ (∀ b : Byte, b ≠ 0 → ∃! c, multiply b c = 1) ∧
  ∀ b c : Byte, multiply b c = 1 → subByte b = affine c

/-- R223, R221: the inverse transforms undo the transforms, in both orders, on every grid, and AddRoundKey
with one slice undoes itself. -/
def Obligations.InverseTransformsUndoTheTransforms : Prop :=
  ∀ (s : Grid) (w : Vector Word 60) (off : Nat),
    invShiftRows (shiftRows s) = s ∧ shiftRows (invShiftRows s) = s ∧
    invSubBytes (subBytes s) = s ∧ subBytes (invSubBytes s) = s ∧
    invMixColumns (mixColumns s) = s ∧ mixColumns (invMixColumns s) = s ∧
    addRoundKey w (addRoundKey w s off) off = s

/-- R249, R242: decryption with the same schedule recovers the block from the output words STATE0..3, and
encryption recovers what was decrypted, for every schedule and block. -/
def Obligations.DecryptionInvertsEncryption : Prop :=
  ∀ (w : Vector Word 60) (nr : Nat) (din : Vector Word 4),
    (decipher w nr (cipher w nr din).words).words = din ∧
    (cipher w nr (decipher w nr din).words).words = din

/-- R68, R69, R28: DINc becomes column c unchanged, the output words reload as the same grid, and the first
Nk words of the schedule are KEY0 to KEY(Nk-1). -/
def Obligations.ByteOrderIsTheSpecs : Prop :=
  (∀ (din : Vector Word 4) (c : Fin 4), (loadBlock din).stateWord c = din[c]) ∧
  (∀ g : Grid, loadBlock g.words = g) ∧
  ∀ (key : Vector Word 8) (nk nr : Nat), (nk = 4 ∧ nr = 10 ∨ nk = 6 ∧ nr = 12 ∨ nk = 8 ∧ nr = 14) →
    ∀ k : Fin 8, k.val < nk → (expand (keyBytes key nk) nk nr).getD k.val 0 = key[k]

/-- R100, R289: the commands of `ROUND 4r`, each issued and run, leave in the grid what round r of an
encryption leaves; those of `INVROUND 4(NR-r)` what round r of a decryption leaves. -/
def Obligations.SingleTransformsComputeARound : Prop :=
  ∀ (s : State) (r : Nat), Inv s → s.rstN = true → s.pending = none → s.status.keyValid = true →
    1 ≤ r → r < s.status.nr.toNat →
    (s.events = [.write 0 32 0x00000041, .engine, .write 0 32 0x00000043, .engine,
        .write 0 32 0x00000045, .engine, .write 0 32 (encode (.addRoundKey (4 * r))), .engine] →
      ∃ t, Host.Core.run core 8 s = .next t ∧ t.grid = encRound s.sched r s.grid ∧
        t.status.errcode = .ok ∧ t.busy = false) ∧
    (s.events = [.write 0 32 0x00000044, .engine, .write 0 32 0x00000042, .engine,
        .write 0 32 (encode (.addRoundKey (4 * (s.status.nr.toNat - r)))), .engine,
        .write 0 32 0x00000046, .engine] →
      ∃ t, Host.Core.run core 8 s = .next t ∧ t.grid = decRound s.sched s.status.nr.toNat r s.grid ∧
        t.status.errcode = .ok ∧ t.busy = false)
end

