-- ==== Sys2Proof/Laws/State.lean ====
section
/-! SUPPORT. What each named update of the state does to each field, one lemma per field per update, and
the same for the updates of STATUS, so that no proof unfolds a record update. -/

namespace Sys2Proof.Machine

/-! ### withResult -/

@[simp] theorem State.withResult_rstN (s : State) (v : Word) :
    (s.withResult v).rstN = s.rstN := rfl
@[simp] theorem State.withResult_regs (s : State) (v : Word) :
    (s.withResult v).regs = s.regs := rfl
@[simp] theorem State.withResult_result (s : State) (v : Word) :
    (s.withResult v).result = v := rfl
@[simp] theorem State.withResult_grid (s : State) (v : Word) :
    (s.withResult v).grid = s.grid := rfl
@[simp] theorem State.withResult_sched (s : State) (v : Word) :
    (s.withResult v).sched = s.sched := rfl
@[simp] theorem State.withResult_status (s : State) (v : Word) :
    (s.withResult v).status = s.status := rfl
@[simp] theorem State.withResult_pending (s : State) (v : Word) :
    (s.withResult v).pending = s.pending := rfl
@[simp] theorem State.withResult_written (s : State) (v : Word) :
    (s.withResult v).written = { s.written with result := true } := rfl
@[simp] theorem State.withResult_busRdata (s : State) (v : Word) :
    (s.withResult v).busRdata = s.busRdata := rfl
@[simp] theorem State.withResult_events (s : State) (v : Word) :
    (s.withResult v).events = s.events := rfl
@[simp] theorem State.withResult_epoch (s : State) (v : Word) :
    (s.withResult v).epoch = s.epoch := rfl

/-! ### withGrid -/

@[simp] theorem State.withGrid_rstN (s : State) (g : Grid) :
    (s.withGrid g).rstN = s.rstN := rfl
@[simp] theorem State.withGrid_regs (s : State) (g : Grid) :
    (s.withGrid g).regs = s.regs := rfl
@[simp] theorem State.withGrid_result (s : State) (g : Grid) :
    (s.withGrid g).result = s.result := rfl
@[simp] theorem State.withGrid_grid (s : State) (g : Grid) :
    (s.withGrid g).grid = g := rfl
@[simp] theorem State.withGrid_sched (s : State) (g : Grid) :
    (s.withGrid g).sched = s.sched := rfl
@[simp] theorem State.withGrid_status (s : State) (g : Grid) :
    (s.withGrid g).status = s.status := rfl
@[simp] theorem State.withGrid_pending (s : State) (g : Grid) :
    (s.withGrid g).pending = s.pending := rfl
@[simp] theorem State.withGrid_written (s : State) (g : Grid) :
    (s.withGrid g).written = { s.written with grid := true } := rfl
@[simp] theorem State.withGrid_busRdata (s : State) (g : Grid) :
    (s.withGrid g).busRdata = s.busRdata := rfl
@[simp] theorem State.withGrid_events (s : State) (g : Grid) :
    (s.withGrid g).events = s.events := rfl
@[simp] theorem State.withGrid_epoch (s : State) (g : Grid) :
    (s.withGrid g).epoch = s.epoch := rfl

/-! ### mapGrid -/

@[simp] theorem State.mapGrid_rstN (s : State) (f : Grid → Grid) :
    (s.mapGrid f).rstN = s.rstN := rfl
@[simp] theorem State.mapGrid_regs (s : State) (f : Grid → Grid) :
    (s.mapGrid f).regs = s.regs := rfl
@[simp] theorem State.mapGrid_result (s : State) (f : Grid → Grid) :
    (s.mapGrid f).result = s.result := rfl
@[simp] theorem State.mapGrid_grid (s : State) (f : Grid → Grid) :
    (s.mapGrid f).grid = f s.grid := rfl
@[simp] theorem State.mapGrid_sched (s : State) (f : Grid → Grid) :
    (s.mapGrid f).sched = s.sched := rfl
@[simp] theorem State.mapGrid_status (s : State) (f : Grid → Grid) :
    (s.mapGrid f).status = s.status := rfl
@[simp] theorem State.mapGrid_pending (s : State) (f : Grid → Grid) :
    (s.mapGrid f).pending = s.pending := rfl
@[simp] theorem State.mapGrid_written (s : State) (f : Grid → Grid) :
    (s.mapGrid f).written = s.written := rfl
@[simp] theorem State.mapGrid_busRdata (s : State) (f : Grid → Grid) :
    (s.mapGrid f).busRdata = s.busRdata := rfl
@[simp] theorem State.mapGrid_events (s : State) (f : Grid → Grid) :
    (s.mapGrid f).events = s.events := rfl
@[simp] theorem State.mapGrid_epoch (s : State) (f : Grid → Grid) :
    (s.mapGrid f).epoch = s.epoch := rfl

/-! ### withSchedule -/

@[simp] theorem State.withSchedule_rstN (s : State) (ws : List Word) :
    (s.withSchedule ws).rstN = s.rstN := rfl
@[simp] theorem State.withSchedule_regs (s : State) (ws : List Word) :
    (s.withSchedule ws).regs = s.regs := rfl
@[simp] theorem State.withSchedule_result (s : State) (ws : List Word) :
    (s.withSchedule ws).result = s.result := rfl
@[simp] theorem State.withSchedule_grid (s : State) (ws : List Word) :
    (s.withSchedule ws).grid = s.grid := rfl
@[simp] theorem State.withSchedule_sched (s : State) (ws : List Word) :
    (s.withSchedule ws).sched = overwriteFirst ws s.sched := rfl
@[simp] theorem State.withSchedule_status (s : State) (ws : List Word) :
    (s.withSchedule ws).status = s.status := rfl
@[simp] theorem State.withSchedule_pending (s : State) (ws : List Word) :
    (s.withSchedule ws).pending = s.pending := rfl
@[simp] theorem State.withSchedule_written (s : State) (ws : List Word) :
    (s.withSchedule ws).written = { s.written with sched := max s.written.sched ws.length } := rfl
@[simp] theorem State.withSchedule_busRdata (s : State) (ws : List Word) :
    (s.withSchedule ws).busRdata = s.busRdata := rfl
@[simp] theorem State.withSchedule_events (s : State) (ws : List Word) :
    (s.withSchedule ws).events = s.events := rfl
@[simp] theorem State.withSchedule_epoch (s : State) (ws : List Word) :
    (s.withSchedule ws).epoch = s.epoch := rfl

/-! ### setKey -/

@[simp] theorem State.setKey_rstN (s : State) (nk nr : Nat) :
    (s.setKey nk nr).rstN = s.rstN := rfl
@[simp] theorem State.setKey_regs (s : State) (nk nr : Nat) :
    (s.setKey nk nr).regs = s.regs := rfl
@[simp] theorem State.setKey_result (s : State) (nk nr : Nat) :
    (s.setKey nk nr).result = s.result := rfl
@[simp] theorem State.setKey_grid (s : State) (nk nr : Nat) :
    (s.setKey nk nr).grid = s.grid := rfl
@[simp] theorem State.setKey_sched (s : State) (nk nr : Nat) :
    (s.setKey nk nr).sched = s.sched := rfl
@[simp] theorem State.setKey_status (s : State) (nk nr : Nat) :
    (s.setKey nk nr).status = statusSetKey nk nr s.status := rfl
@[simp] theorem State.setKey_pending (s : State) (nk nr : Nat) :
    (s.setKey nk nr).pending = s.pending := rfl
@[simp] theorem State.setKey_written (s : State) (nk nr : Nat) :
    (s.setKey nk nr).written = s.written := rfl
@[simp] theorem State.setKey_busRdata (s : State) (nk nr : Nat) :
    (s.setKey nk nr).busRdata = s.busRdata := rfl
@[simp] theorem State.setKey_events (s : State) (nk nr : Nat) :
    (s.setKey nk nr).events = s.events := rfl
@[simp] theorem State.setKey_epoch (s : State) (nk nr : Nat) :
    (s.setKey nk nr).epoch = s.epoch := rfl

/-! ### clearKey -/

@[simp] theorem State.clearKey_rstN (s : State) :
    (s.clearKey).rstN = s.rstN := rfl
@[simp] theorem State.clearKey_regs (s : State) :
    (s.clearKey).regs = s.regs := rfl
@[simp] theorem State.clearKey_result (s : State) :
    (s.clearKey).result = s.result := rfl
@[simp] theorem State.clearKey_grid (s : State) :
    (s.clearKey).grid = s.grid := rfl
@[simp] theorem State.clearKey_sched (s : State) :
    (s.clearKey).sched = s.sched := rfl
@[simp] theorem State.clearKey_status (s : State) :
    (s.clearKey).status = statusClearKey s.status := rfl
@[simp] theorem State.clearKey_pending (s : State) :
    (s.clearKey).pending = s.pending := rfl
@[simp] theorem State.clearKey_written (s : State) :
    (s.clearKey).written = s.written := rfl
@[simp] theorem State.clearKey_busRdata (s : State) :
    (s.clearKey).busRdata = s.busRdata := rfl
@[simp] theorem State.clearKey_events (s : State) :
    (s.clearKey).events = s.events := rfl
@[simp] theorem State.clearKey_epoch (s : State) :
    (s.clearKey).epoch = s.epoch := rfl

/-! ### complete -/

@[simp] theorem State.complete_rstN (s : State) (cmd : Word) (e : ErrCode) :
    (s.complete cmd e).rstN = s.rstN := rfl
@[simp] theorem State.complete_regs (s : State) (cmd : Word) (e : ErrCode) :
    (s.complete cmd e).regs = s.regs := rfl
@[simp] theorem State.complete_result (s : State) (cmd : Word) (e : ErrCode) :
    (s.complete cmd e).result = s.result := rfl
@[simp] theorem State.complete_grid (s : State) (cmd : Word) (e : ErrCode) :
    (s.complete cmd e).grid = s.grid := rfl
@[simp] theorem State.complete_sched (s : State) (cmd : Word) (e : ErrCode) :
    (s.complete cmd e).sched = s.sched := rfl
@[simp] theorem State.complete_status (s : State) (cmd : Word) (e : ErrCode) :
    (s.complete cmd e).status = statusComplete (e == .ok && isCipherWord cmd) e s.status := rfl
@[simp] theorem State.complete_pending (s : State) (cmd : Word) (e : ErrCode) :
    (s.complete cmd e).pending = none := rfl
@[simp] theorem State.complete_written (s : State) (cmd : Word) (e : ErrCode) :
    (s.complete cmd e).written = s.written := rfl
@[simp] theorem State.complete_busRdata (s : State) (cmd : Word) (e : ErrCode) :
    (s.complete cmd e).busRdata = s.busRdata := rfl
@[simp] theorem State.complete_events (s : State) (cmd : Word) (e : ErrCode) :
    (s.complete cmd e).events = s.events := rfl
@[simp] theorem State.complete_epoch (s : State) (cmd : Word) (e : ErrCode) :
    (s.complete cmd e).epoch = s.epoch := rfl

/-! ### setPosition -/

@[simp] theorem State.setPosition_rstN (s : State) (f : Fsm) (r : BitVec 4) :
    (s.setPosition f r).rstN = s.rstN := rfl
@[simp] theorem State.setPosition_regs (s : State) (f : Fsm) (r : BitVec 4) :
    (s.setPosition f r).regs = s.regs := rfl
@[simp] theorem State.setPosition_result (s : State) (f : Fsm) (r : BitVec 4) :
    (s.setPosition f r).result = s.result := rfl
@[simp] theorem State.setPosition_grid (s : State) (f : Fsm) (r : BitVec 4) :
    (s.setPosition f r).grid = s.grid := rfl
@[simp] theorem State.setPosition_sched (s : State) (f : Fsm) (r : BitVec 4) :
    (s.setPosition f r).sched = s.sched := rfl
@[simp] theorem State.setPosition_status (s : State) (f : Fsm) (r : BitVec 4) :
    (s.setPosition f r).status = { s.status with fsm := f, round := r } := rfl
@[simp] theorem State.setPosition_pending (s : State) (f : Fsm) (r : BitVec 4) :
    (s.setPosition f r).pending = s.pending := rfl
@[simp] theorem State.setPosition_written (s : State) (f : Fsm) (r : BitVec 4) :
    (s.setPosition f r).written = s.written := rfl
@[simp] theorem State.setPosition_busRdata (s : State) (f : Fsm) (r : BitVec 4) :
    (s.setPosition f r).busRdata = s.busRdata := rfl
@[simp] theorem State.setPosition_events (s : State) (f : Fsm) (r : BitVec 4) :
    (s.setPosition f r).events = s.events := rfl
@[simp] theorem State.setPosition_epoch (s : State) (f : Fsm) (r : BitVec 4) :
    (s.setPosition f r).epoch = s.epoch := rfl

/-! ### tick -/

@[simp] theorem State.tick_rstN (s : State) :
    (s.tick).rstN = s.rstN := rfl
@[simp] theorem State.tick_regs (s : State) :
    (s.tick).regs = s.regs := rfl
@[simp] theorem State.tick_result (s : State) :
    (s.tick).result = s.result := rfl
@[simp] theorem State.tick_grid (s : State) :
    (s.tick).grid = s.grid := rfl
@[simp] theorem State.tick_sched (s : State) :
    (s.tick).sched = s.sched := rfl
@[simp] theorem State.tick_status (s : State) :
    (s.tick).status = s.status := rfl
@[simp] theorem State.tick_pending (s : State) :
    (s.tick).pending = s.pending := rfl
@[simp] theorem State.tick_written (s : State) :
    (s.tick).written = s.written := rfl
@[simp] theorem State.tick_busRdata (s : State) :
    (s.tick).busRdata = s.busRdata := rfl
@[simp] theorem State.tick_events (s : State) :
    (s.tick).events = s.events := rfl
@[simp] theorem State.tick_epoch (s : State) :
    (s.tick).epoch = s.epoch + 1 := rfl

/-! ### issue -/

@[simp] theorem issue_rstN (s : State) (v : Word) :
    (issue v s).rstN = s.rstN := rfl
@[simp] theorem issue_regs (s : State) (v : Word) :
    (issue v s).regs = s.regs := rfl
@[simp] theorem issue_result (s : State) (v : Word) :
    (issue v s).result = s.result := rfl
@[simp] theorem issue_grid (s : State) (v : Word) :
    (issue v s).grid = s.grid := rfl
@[simp] theorem issue_sched (s : State) (v : Word) :
    (issue v s).sched = s.sched := rfl
@[simp] theorem issue_status (s : State) (v : Word) :
    (issue v s).status = if check v s.status.keyValid s.status.nr s.regs = .ok ∧ isCipherWord v = true then
        statusStart (dirOfWord v) s.status else s.status := rfl
@[simp] theorem issue_pending (s : State) (v : Word) :
    (issue v s).pending = some ⟨v, check v s.status.keyValid s.status.nr s.regs, s.regs⟩ := rfl
@[simp] theorem issue_written (s : State) (v : Word) :
    (issue v s).written = s.written := rfl
@[simp] theorem issue_busRdata (s : State) (v : Word) :
    (issue v s).busRdata = s.busRdata := rfl
@[simp] theorem issue_events (s : State) (v : Word) :
    (issue v s).events = s.events := rfl
@[simp] theorem issue_epoch (s : State) (v : Word) :
    (issue v s).epoch = s.epoch := rfl

/-! ### hostRead -/

@[simp] theorem hostRead_rstN (s : State) (off : Nat) :
    (hostRead off s).rstN = s.rstN := rfl
@[simp] theorem hostRead_regs (s : State) (off : Nat) :
    (hostRead off s).regs = s.regs := rfl
@[simp] theorem hostRead_result (s : State) (off : Nat) :
    (hostRead off s).result = s.result := rfl
@[simp] theorem hostRead_grid (s : State) (off : Nat) :
    (hostRead off s).grid = s.grid := rfl
@[simp] theorem hostRead_sched (s : State) (off : Nat) :
    (hostRead off s).sched = s.sched := rfl
@[simp] theorem hostRead_status (s : State) (off : Nat) :
    (hostRead off s).status = s.status := rfl
@[simp] theorem hostRead_pending (s : State) (off : Nat) :
    (hostRead off s).pending = s.pending := rfl
@[simp] theorem hostRead_written (s : State) (off : Nat) :
    (hostRead off s).written = s.written := rfl
@[simp] theorem hostRead_busRdata (s : State) (off : Nat) :
    (hostRead off s).busRdata = if s.rstN then readValue off s else 0 := rfl
@[simp] theorem hostRead_events (s : State) (off : Nat) :
    (hostRead off s).events = s.events := rfl
@[simp] theorem hostRead_epoch (s : State) (off : Nat) :
    (hostRead off s).epoch = s.epoch := rfl

/-! ### statusWrite -/

@[simp] theorem statusWrite_keyValid (st : Status) (v : Word) :
    (statusWrite v st).keyValid = st.keyValid := rfl
@[simp] theorem statusWrite_err (st : Status) (v : Word) :
    (statusWrite v st).err = (st.err && !v.getLsbD 2) := rfl
@[simp] theorem statusWrite_ovr (st : Status) (v : Word) :
    (statusWrite v st).ovr = (st.ovr && !v.getLsbD 3) := rfl
@[simp] theorem statusWrite_errcode (st : Status) (v : Word) :
    (statusWrite v st).errcode = st.errcode := rfl
@[simp] theorem statusWrite_nk (st : Status) (v : Word) :
    (statusWrite v st).nk = st.nk := rfl
@[simp] theorem statusWrite_nr (st : Status) (v : Word) :
    (statusWrite v st).nr = st.nr := rfl
@[simp] theorem statusWrite_fsm (st : Status) (v : Word) :
    (statusWrite v st).fsm = st.fsm := rfl
@[simp] theorem statusWrite_dir (st : Status) (v : Word) :
    (statusWrite v st).dir = st.dir := rfl
@[simp] theorem statusWrite_round (st : Status) (v : Word) :
    (statusWrite v st).round = st.round := rfl

/-! ### statusComplete -/

@[simp] theorem statusComplete_keyValid (st : Status) (k : Bool) (e : ErrCode) :
    (statusComplete k e st).keyValid = st.keyValid := rfl
@[simp] theorem statusComplete_err (st : Status) (k : Bool) (e : ErrCode) :
    (statusComplete k e st).err = (st.err || (e != .ok)) := rfl
@[simp] theorem statusComplete_ovr (st : Status) (k : Bool) (e : ErrCode) :
    (statusComplete k e st).ovr = st.ovr := rfl
@[simp] theorem statusComplete_errcode (st : Status) (k : Bool) (e : ErrCode) :
    (statusComplete k e st).errcode = e := rfl
@[simp] theorem statusComplete_nk (st : Status) (k : Bool) (e : ErrCode) :
    (statusComplete k e st).nk = st.nk := rfl
@[simp] theorem statusComplete_nr (st : Status) (k : Bool) (e : ErrCode) :
    (statusComplete k e st).nr = st.nr := rfl
@[simp] theorem statusComplete_fsm (st : Status) (k : Bool) (e : ErrCode) :
    (statusComplete k e st).fsm = if k then st.fsm else .idle := rfl
@[simp] theorem statusComplete_dir (st : Status) (k : Bool) (e : ErrCode) :
    (statusComplete k e st).dir = st.dir := rfl
@[simp] theorem statusComplete_round (st : Status) (k : Bool) (e : ErrCode) :
    (statusComplete k e st).round = if k then st.round else 0 := rfl

/-! ### statusClearKey -/

@[simp] theorem statusClearKey_keyValid (st : Status) :
    (statusClearKey st).keyValid = false := rfl
@[simp] theorem statusClearKey_err (st : Status) :
    (statusClearKey st).err = st.err := rfl
@[simp] theorem statusClearKey_ovr (st : Status) :
    (statusClearKey st).ovr = st.ovr := rfl
@[simp] theorem statusClearKey_errcode (st : Status) :
    (statusClearKey st).errcode = st.errcode := rfl
@[simp] theorem statusClearKey_nk (st : Status) :
    (statusClearKey st).nk = 0 := rfl
@[simp] theorem statusClearKey_nr (st : Status) :
    (statusClearKey st).nr = 0 := rfl
@[simp] theorem statusClearKey_fsm (st : Status) :
    (statusClearKey st).fsm = st.fsm := rfl
@[simp] theorem statusClearKey_dir (st : Status) :
    (statusClearKey st).dir = st.dir := rfl
@[simp] theorem statusClearKey_round (st : Status) :
    (statusClearKey st).round = st.round := rfl

/-! ### statusSetKey -/

@[simp] theorem statusSetKey_keyValid (st : Status) (nk nr : Nat) :
    (statusSetKey nk nr st).keyValid = true := rfl
@[simp] theorem statusSetKey_err (st : Status) (nk nr : Nat) :
    (statusSetKey nk nr st).err = st.err := rfl
@[simp] theorem statusSetKey_ovr (st : Status) (nk nr : Nat) :
    (statusSetKey nk nr st).ovr = st.ovr := rfl
@[simp] theorem statusSetKey_errcode (st : Status) (nk nr : Nat) :
    (statusSetKey nk nr st).errcode = st.errcode := rfl
@[simp] theorem statusSetKey_nk (st : Status) (nk nr : Nat) :
    (statusSetKey nk nr st).nk = BitVec.ofNat 4 nk := rfl
@[simp] theorem statusSetKey_nr (st : Status) (nk nr : Nat) :
    (statusSetKey nk nr st).nr = BitVec.ofNat 4 nr := rfl
@[simp] theorem statusSetKey_fsm (st : Status) (nk nr : Nat) :
    (statusSetKey nk nr st).fsm = st.fsm := rfl
@[simp] theorem statusSetKey_dir (st : Status) (nk nr : Nat) :
    (statusSetKey nk nr st).dir = st.dir := rfl
@[simp] theorem statusSetKey_round (st : Status) (nk nr : Nat) :
    (statusSetKey nk nr st).round = st.round := rfl

/-! ### statusStart -/

@[simp] theorem statusStart_keyValid (st : Status) (d : Dir) :
    (statusStart d st).keyValid = st.keyValid := rfl
@[simp] theorem statusStart_err (st : Status) (d : Dir) :
    (statusStart d st).err = st.err := rfl
@[simp] theorem statusStart_ovr (st : Status) (d : Dir) :
    (statusStart d st).ovr = st.ovr := rfl
@[simp] theorem statusStart_errcode (st : Status) (d : Dir) :
    (statusStart d st).errcode = st.errcode := rfl
@[simp] theorem statusStart_nk (st : Status) (d : Dir) :
    (statusStart d st).nk = st.nk := rfl
@[simp] theorem statusStart_nr (st : Status) (d : Dir) :
    (statusStart d st).nr = st.nr := rfl
@[simp] theorem statusStart_fsm (st : Status) (d : Dir) :
    (statusStart d st).fsm = .initial := rfl
@[simp] theorem statusStart_dir (st : Status) (d : Dir) :
    (statusStart d st).dir = d := rfl
@[simp] theorem statusStart_round (st : Status) (d : Dir) :
    (statusStart d st).round = 0 := rfl

/-! ### The schedule storage, BUSY, the grid and its columns -/

/-- Word i of schedule storage overwritten from word k on. -/
theorem overwriteFrom_getElem (k : Nat) (ws : List Word) (old : Vector Word 60) (i : Nat) (h : i < 60) :
    (overwriteFrom k ws old)[i] = if k ≤ i then ws.getD (i - k) (old[i]) else old[i] := by
  induction ws generalizing k old with
  | nil => simp [overwriteFrom]
  | cons w ws ih =>
    rw [overwriteFrom, ih]
    rcases Nat.lt_trichotomy k i with hk | rfl | hk
    · have h1 : k + 1 ≤ i := hk
      have h2 : i - k = (i - (k + 1)) + 1 := by omega
      simp [h1, Nat.le_of_lt hk, Nat.ne_of_lt hk, h2]
    · simp
    · simp [Nat.not_le.2 hk, Nat.ne_of_gt hk, show ¬ k + 1 ≤ i by omega]

/-- Word i of schedule storage overwritten from the start. -/
@[simp] theorem overwriteFirst_getElem (ws : List Word) (old : Vector Word 60) (i : Nat) (h : i < 60) :
    (overwriteFirst ws old)[i] = ws.getD i (old[i]) := by
  simp [overwriteFirst, overwriteFrom_getElem]

@[simp] theorem State.busy_eq (s : State) : s.busy = s.pending.isSome := rfl

@[simp] theorem Column.get_ofFn (f : Fin 4 → Byte) (r : Fin 4) : (Column.ofFn f).get r = f r := by
  fin_cases r <;> rfl

@[simp] theorem Grid.col_ofCols (f : Fin 4 → Column) (c : Fin 4) : (Grid.ofCols f).col c = f c := by
  fin_cases c <;> rfl

@[simp] theorem Grid.get_ofFn (f : Fin 4 → Fin 4 → Byte) (r c : Fin 4) : (Grid.ofFn f).get r c = f r c := by
  simp [Grid.get, Grid.ofFn]

theorem Column.ext_get {a b : Column} (h : ∀ r, a.get r = b.get r) : a = b := by
  cases a; cases b
  have h0 := h 0; have h1 := h 1; have h2 := h 2; have h3 := h 3
  simp_all [Column.get]

theorem Grid.ext_col {a b : Grid} (h : ∀ c, a.col c = b.col c) : a = b := by
  cases a; cases b
  have h0 := h 0; have h1 := h 1; have h2 := h 2; have h3 := h 3
  simp_all [Grid.col]

/-- Two grids are equal when `s[r][c]` is the same for every r and c. -/
theorem Grid.ext_get {a b : Grid} (h : ∀ r c, a.get r c = b.get r c) : a = b :=
  Grid.ext_col fun c => Column.ext_get fun r => h r c

end Sys2Proof.Machine
end

