-- ==== Sys2Proof/Laws/Bytes.lean ====
section
/-! SUPPORT. Packing and unpacking words bit by bit: the bytes of a packed word, the word of its bytes,
and STATUS as shifted fields. -/

namespace Sys2Proof.Machine

/-- Bit k of a packed word. -/
theorem packWord_getLsbD (b0 b1 b2 b3 : Byte) (k : Nat) :
    (packWord b0 b1 b2 b3).getLsbD k =
      if k < 8 then b3.getLsbD k
      else if k - 8 < 8 then b2.getLsbD (k - 8)
      else if k - 8 - 8 < 8 then b1.getLsbD (k - 8 - 8)
      else b0.getLsbD (k - 8 - 8 - 8) := by
  refine (BitVec.getLsbD_append ..).trans (if_congr Iff.rfl rfl ?_)
  refine (BitVec.getLsbD_append ..).trans (if_congr Iff.rfl rfl ?_)
  exact BitVec.getLsbD_append ..

/-- A packed word as shifted bytes. -/
theorem packWord_eq_or (b0 b1 b2 b3 : Byte) :
    packWord b0 b1 b2 b3 = (b0.setWidth 32 <<< 24) ||| (b1.setWidth 32 <<< 16) |||
      (b2.setWidth 32 <<< 8) ||| b3.setWidth 32 := by
  ext k hk
  rw [← BitVec.getLsbD_eq_getElem, packWord_getLsbD]
  interval_cases k <;> simp

/-- Bit k of byte j of a word. -/
@[simp] theorem byteOf_getLsbD (j : Nat) (w : Word) (k : Nat) :
    (byteOf j w).getLsbD k = (decide (k < 8) && w.getLsbD (24 - 8 * j + k)) := by
  simp [byteOf]

@[simp] theorem byteOf_packWord_0 (b0 b1 b2 b3 : Byte) : byteOf 0 (packWord b0 b1 b2 b3) = b0 := by
  ext k hk; rw [← BitVec.getLsbD_eq_getElem, byteOf_getLsbD, packWord_getLsbD]
  interval_cases k <;> simp

@[simp] theorem byteOf_packWord_1 (b0 b1 b2 b3 : Byte) : byteOf 1 (packWord b0 b1 b2 b3) = b1 := by
  ext k hk; rw [← BitVec.getLsbD_eq_getElem, byteOf_getLsbD, packWord_getLsbD]
  interval_cases k <;> simp

@[simp] theorem byteOf_packWord_2 (b0 b1 b2 b3 : Byte) : byteOf 2 (packWord b0 b1 b2 b3) = b2 := by
  ext k hk; rw [← BitVec.getLsbD_eq_getElem, byteOf_getLsbD, packWord_getLsbD]
  interval_cases k <;> simp

@[simp] theorem byteOf_packWord_3 (b0 b1 b2 b3 : Byte) : byteOf 3 (packWord b0 b1 b2 b3) = b3 := by
  ext k hk; rw [← BitVec.getLsbD_eq_getElem, byteOf_getLsbD, packWord_getLsbD]
  interval_cases k <;> simp

/-- A word is packed from its bytes. -/
@[simp] theorem packWord_byteOf (w : Word) :
    packWord (byteOf 0 w) (byteOf 1 w) (byteOf 2 w) (byteOf 3 w) = w := by
  ext k hk
  rw [← BitVec.getLsbD_eq_getElem, packWord_getLsbD]
  interval_cases k <;> simp [byteOf]

/-- A column's word unpacks to the column. -/
@[simp] theorem Column.ofWord_toWord (v : Column) : Column.ofWord v.toWord = v := by
  simp [Column.ofWord, Column.toWord]

/-- A word's column packs to the word. -/
@[simp] theorem Column.toWord_ofWord (w : Word) : (Column.ofWord w).toWord = w := by
  simp [Column.ofWord, Column.toWord]

/-- Byte r of a word's column. -/
theorem Column.get_ofWord (w : Word) (r : Fin 4) : (Column.ofWord w).get r = byteOf r.val w := by
  fin_cases r <;> rfl

/-- STATUS as its fields, each shifted to its place (R31). -/
theorem statusWord_eq_or (busy : Bool) (st : Status) :
    statusWord busy st =
      (st.round.setWidth 32 <<< 28) ||| ((dirBits st.dir).setWidth 32 <<< 27) |||
      ((fsmBits st.fsm).setWidth 32 <<< 24) ||| (st.nr.setWidth 32 <<< 20) ||| (st.nk.setWidth 32 <<< 16) |||
      ((errBits st.errcode).setWidth 32 <<< 8) ||| ((flagBit st.ovr).setWidth 32 <<< 3) |||
      ((flagBit st.err).setWidth 32 <<< 2) ||| ((flagBit st.keyValid).setWidth 32 <<< 1) |||
      (flagBit busy).setWidth 32 := by
  ext k hk
  rw [← BitVec.getLsbD_eq_getElem]
  refine (BitVec.getLsbD_append ..).trans ?_
  simp only [BitVec.getLsbD_append]
  interval_cases k <;> simp

end Sys2Proof.Machine
end

