-- ==== Sys2Proof/Laws/Decoding.lean ====
section
/-! SUPPORT. What a successful decoding says of the word, said once. -/

namespace Sys2Proof

/-- A row of the opcode map fixes the opcode and the format of its command, and gives it the operands it
uses. -/
theorem opcodeRow_some {opc a b : Byte} {f : Format} {i : Instr} (h : opcodeRow opc a b = some (f, i)) :
    opc = opcodeOf i ∧ f = formatOf i ∧ i.wellFormed = true ∧
      operandA i = (if f = .n then 0 else a) ∧ operandB i = (if f = .ab then b else 0) := by
  have ha := a.isLt
  unfold opcodeRow at h
  split at h <;> simp only [Option.some.injEq, Prod.mk.injEq, reduceCtorEq] at h <;>
    obtain ⟨rfl, rfl⟩ := h <;> rename_i ho <;>
    refine ⟨BitVec.eq_of_toNat_eq ho, rfl, ?_, ?_, ?_⟩ <;>
    simp [Instr.wellFormed, operandA, operandB, ha]

/-- The map's row for a command's opcode is that command, with whatever operands stand in the word. -/
theorem opcodeRow_opcodeOf (i : Instr) (h : i.wellFormed = true) :
    opcodeRow (opcodeOf i) (operandA i) (operandB i) = some (formatOf i, i) := by
  cases i <;> simp_all [opcodeRow, opcodeOf, operandA, operandB, formatOf, Instr.wellFormed, Nat.mod_eq_of_lt]

/-- A word decodes to `i` exactly when its opcode's row gives `i` and its must-be-zero fields are zero. -/
theorem decode_ok_iff {w : Word} {i : Instr} :
    decode w = .ok i ↔ opcodeRow (opcField w) (aField w) (bField w) = some (formatOf i, i) ∧
      rsvField w = 0 ∧ unusedZero (formatOf i) w = true := by
  unfold decode
  split
  · rename_i h; simp [h]
  · rename_i f j h
    obtain ⟨_, rfl, _⟩ := opcodeRow_some h
    by_cases h1 : rsvField w = 0 <;> by_cases h2 : unusedZero (formatOf j) w = true <;>
      simp [h, h1, h2] <;> grind

/-- The opcode of a word that decodes is its command's. -/
theorem opcField_of_decode {w : Word} {i : Instr} (h : decode w = .ok i) : opcField w = opcodeOf i :=
  (opcodeRow_some (decode_ok_iff.1 h).1).1

/-- The command of a word that decodes is well formed. -/
theorem wellFormed_of_decode {w : Word} {i : Instr} (h : decode w = .ok i) : i.wellFormed = true :=
  (opcodeRow_some (decode_ok_iff.1 h).1).2.2.1

/-- The opcode field of an encoded command. -/
@[simp] theorem opcField_encode (i : Instr) : opcField (encode i) = opcodeOf i := by
  simp only [opcField, encode]
  ext k hk
  simp [hk, show k < 16 by omega, show k < 32 by omega]

/-- The A field of an encoded command. -/
@[simp] theorem aField_encode (i : Instr) : aField (encode i) = operandA i := by
  simp only [aField, encode]
  ext k hk
  simp [hk, show 8 + k < 16 by omega, show 8 + k < 32 by omega]

/-- The B field of an encoded command. -/
@[simp] theorem bField_encode (i : Instr) : bField (encode i) = operandB i := by
  simp only [bField, encode]
  ext k hk
  simp [hk, show 16 + k < 32 by omega, show 16 + k - 8 = 8 + k by omega]
  intro h
  simp [BitVec.getLsbD_of_ge _ (16 + k) (show 8 ≤ 16 + k by omega)] at h

/-- The RSV field of an encoded command. -/
@[simp] theorem rsvField_encode (i : Instr) : rsvField (encode i) = 0 := by
  simp only [rsvField, encode]
  ext k hk
  simp [show 24 + k - 8 = 16 + k by omega, show 24 + k - 16 = 8 + k by omega,
    BitVec.getLsbD_of_ge _ (16 + k) (show 8 ≤ 16 + k by omega),
    BitVec.getLsbD_of_ge _ (24 + k) (show 8 ≤ 24 + k by omega)]

end Sys2Proof
end

