-- ==== Sys2Proof/Laws/Ops.lean ====
section
/-! SUPPORT. What each shared operation of the machine can do, said once: completion and failure, the one
engine step of a command, the sequencer's step, exec, a host access, an event, and the step. -/

namespace Sys2Proof.Machine

/-! ### Completion -/

/-- A word that decodes is an ENCRYPT or DECRYPT word exactly when its command is one. -/
theorem isCipherWord_of_decode {w : Word} {i : Instr} (h : decode w = .ok i) :
    isCipherWord w = true ↔ i = .encrypt ∨ i = .decrypt := by
  simp only [isCipherWord, opcField_of_decode h]
  cases i <;> simp [opcodeOf]

/-- Completing any other command with success (R115). -/
theorem complete_ok (s : State) {cmd : Word} (h : isCipherWord cmd = false) :
    s.complete cmd .ok = afterSuccess s := by
  simp [State.complete, afterSuccess, statusComplete, h]

/-- Completing with an error, whatever the command (R115). -/
theorem complete_error (s : State) (cmd : Word) {e : ErrCode} (h : e ≠ .ok) :
    s.complete cmd e = afterError e s := by
  simp [State.complete, afterError, statusComplete, h]

/-- A failure with any error but INVALID_KEY_LENGTH only completes (R274). -/
theorem fail_eq_afterError (s : State) (cmd : Word) {e : ErrCode} (h : e ≠ .ok)
    (h' : e ≠ .invalidKeyLength) : s.fail cmd e = afterError e s := by
  simp [State.fail, h', complete_error s cmd h]

/-- A failure with INVALID_KEY_LENGTH also clears the key (R276). -/
theorem fail_invalidKeyLength (s : State) (cmd : Word) :
    s.fail cmd .invalidKeyLength = afterError .invalidKeyLength s.clearKey := by
  simp [State.fail, complete_error]

/-- What a failure leaves alone, whichever error it is. -/
theorem fail_frame (s : State) (cmd : Word) (e : ErrCode) :
    (s.fail cmd e).rstN = s.rstN ∧ (s.fail cmd e).regs = s.regs ∧ (s.fail cmd e).result = s.result ∧
      (s.fail cmd e).grid = s.grid ∧ (s.fail cmd e).sched = s.sched ∧ (s.fail cmd e).pending = none ∧
      (s.fail cmd e).written = s.written ∧ (s.fail cmd e).busRdata = s.busRdata ∧
      (s.fail cmd e).events = s.events ∧ (s.fail cmd e).epoch = s.epoch := by
  unfold State.fail
  split <;> simp

/-! ### The engine step of a command -/

/-- An accepted command has its effect and completes. -/
theorem runOnce_accepted (effect : Pending → State → State) {s : State} {p : Pending}
    (hp : s.pending = some p) (hv : p.verdict = .ok) :
    runOnce effect s = .next ((effect p s).complete p.cmd .ok) := by
  simp [runOnce, hp, hv]

/-- A command with a failed verdict fails. -/
theorem runOnce_failed (effect : Pending → State → State) {s : State} {p : Pending}
    (hp : s.pending = some p) (hv : p.verdict ≠ .ok) :
    runOnce effect s = .next (s.fail p.cmd p.verdict) := by
  simp [runOnce, hp, hv]

/-- An accepted ENCRYPT or DECRYPT takes its next sequencer step. -/
theorem runSequencer_accepted {s : State} {p : Pending} (hp : s.pending = some p)
    (hv : p.verdict = .ok) : runSequencer s = .next (sequencerStep p s) := by
  simp [runSequencer, hp, hv]

/-- The effect of each accepted command that is neither ENCRYPT nor DECRYPT, before completion. -/
def effectOf (i : Instr) (p : Pending) (s : State) : State :=
  match i with
  | .nop => s
  | .gfAdd a b => s.withResult (zextByte (Machine.gfAdd a b))
  | .gfXtime a => s.withResult (zextByte (xtime a))
  | .gfMul a b => s.withResult (zextByte (multiply a b))
  | .sbox a => s.withResult (zextByte (subByte a))
  | .invSbox a => s.withResult (zextByte (invSubByte a))
  | .keyExpand => keyExpandEffect p.snap s
  | .rotWord => s.withResult (Machine.rotWord p.snap.opw)
  | .subWord => s.withResult (Machine.subWord p.snap.opw)
  | .rcon j => s.withResult (Machine.rcon j)
  | .keyClear => s.clearKey
  | .loadState => s.withGrid (loadBlock p.snap.din)
  | .subBytes => s.mapGrid Machine.subBytes
  | .invSubBytes => s.mapGrid Machine.invSubBytes
  | .shiftRows => s.mapGrid Machine.shiftRows
  | .invShiftRows => s.mapGrid Machine.invShiftRows
  | .mixColumns => s.mapGrid Machine.mixColumns
  | .invMixColumns => s.mapGrid Machine.invMixColumns
  | .addRoundKey off => s.mapGrid fun g => Machine.addRoundKey s.sched g off
  | .encrypt => s
  | .decrypt => s

/-- What exec does for an accepted command. -/
def acceptedStep (i : Instr) (p : Pending) (s : State) : State :=
  match i with
  | .encrypt => sequencerStep p s
  | .decrypt => sequencerStep p s
  | i => (effectOf i p s).complete p.cmd .ok

/-- Everything exec can do: hold with nothing in flight, fail, or the command's own step. -/
theorem exec_eq (i : Instr) (s : State) :
    exec i s = .next (match s.pending with
      | none => s
      | some p => if p.verdict = .ok then acceptedStep i p s else s.fail p.cmd p.verdict) := by
  cases hp : s.pending with
  | none => cases i <;>
      simp [exec, hp, runOnce, runSequencer, execNop, execGfAdd, execGfXtime, execGfMul, execSbox,
        execInvSbox, execKeyExpand, execRotWord, execSubWord, execRcon, execKeyClear, execLoadState,
        execSubBytes, execInvSubBytes, execShiftRows, execInvShiftRows, execMixColumns,
        execInvMixColumns, execAddRoundKey, execEncrypt, execDecrypt]
  | some p =>
    by_cases hv : p.verdict = .ok <;> cases i <;>
      simp [exec, hp, hv, runOnce, runSequencer, execNop, execGfAdd, execGfXtime, execGfMul, execSbox,
        execInvSbox, execKeyExpand, execRotWord, execSubWord, execRcon, execKeyClear, execLoadState,
        execSubBytes, execInvSubBytes, execShiftRows, execInvShiftRows, execMixColumns,
        execInvMixColumns, execAddRoundKey, execEncrypt, execDecrypt, acceptedStep, effectOf]

/-- exec of an accepted command. -/
theorem exec_accepted {i : Instr} {s : State} {p : Pending} (hp : s.pending = some p)
    (hv : p.verdict = .ok) : exec i s = .next (acceptedStep i p s) := by
  simp [exec_eq, hp, hv]

/-- exec of a command whose verdict is an error. -/
theorem exec_failed {i : Instr} {s : State} {p : Pending} (hp : s.pending = some p)
    (hv : p.verdict ≠ .ok) : exec i s = .next (s.fail p.cmd p.verdict) := by
  simp [exec_eq, hp, hv]

/-! ### The engine's turn, a host access, an event, a step -/

/-- Everything the engine's turn can do. -/
theorem engineStep_eq (s : State) :
    engineStep s = .next (
      if s.rstN = true then
        match s.pending with
        | none => s
        | some p =>
          match decode p.cmd with
          | .ok i => if p.verdict = .ok then acceptedStep i p s.tick else s.tick.fail p.cmd p.verdict
          | .error _ => s.tick.fail p.cmd .illegalCommand
      else s) := by
  unfold engineStep
  split
  · cases hp : s.pending with
    | none => simp
    | some p => cases hd : decode p.cmd <;> simp [hd, exec_eq, hp]
  · simp

/-- A host access that goes through is a whole word inside the window, and has its effect. -/
theorem busAccess_next {off width : Nat} {f : State → State} {s t : State}
    (h : busAccess off width f s = .next t) :
    width = 32 ∧ off % 4 = 0 ∧ off < 512 ∧ t = f s := by
  unfold busAccess at h
  split at h
  · cases h
  · rename_i h1
    split at h
    · cases h
    · rename_i h2
      cases h
      simp only [Config.busBits, Config.windowBytes, not_or, not_not] at h1 h2
      exact ⟨h1.1, h1.2, by omega, rfl⟩

/-- A whole-word access inside the window goes through. -/
theorem busAccess_ok {off : Nat} (f : State → State) (s : State) (h : off % 4 = 0) (h' : off < 512) :
    busAccess off 32 f s = .next (f s) := by
  simp [busAccess, Config.busBits, Config.windowBytes, h, Nat.not_le.2 h']

/-- Everything a step that goes on can have been. -/
theorem step_cases {s t : State} (h : step s = .next t) :
    (s.events = [] ∧ engineStep s = .next t) ∨
    (∃ es, s.events = .engine :: es ∧ engineStep { s with events := es } = .next t) ∨
    (∃ off es, s.events = .read off 32 :: es ∧ off % 4 = 0 ∧ off < 512 ∧
      t = hostRead off { s with events := es }) ∨
    (∃ off v es, s.events = .write off 32 v :: es ∧ off % 4 = 0 ∧ off < 512 ∧
      t = (hostWrite off v { s with events := es }).tick) ∨
    (∃ level es, s.events = .rst level :: es ∧ t = setRst level { s with events := es }.tick) := by
  unfold step at h
  split at h
  · rename_i he; exact .inl ⟨he, h⟩
  · rename_i e es he
    cases e with
    | engine => exact .inr (.inl ⟨es, he, h⟩)
    | read off width =>
      obtain ⟨rfl, h1, h2, rfl⟩ := busAccess_next h
      exact .inr (.inr (.inl ⟨off, es, he, h1, h2, rfl⟩))
    | write off width v =>
      obtain ⟨rfl, h1, h2, rfl⟩ := busAccess_next h
      exact .inr (.inr (.inr (.inl ⟨off, v, es, he, h1, h2, rfl⟩)))
    | rst level => cases h; exact .inr (.inr (.inr (.inr ⟨level, es, he, rfl⟩)))

end Sys2Proof.Machine
end

