-- ==== Sys2Proof/Laws/Invariant.lean ====
section
/-! SUPPORT. What the invariant of the block becomes at the issue of a command. -/

namespace Sys2Proof.Machine

/-- Issuing any command word in an idle block that meets the invariant keeps it. -/
theorem inv_issue {s : State} (h : Inv s) (hp : s.pending = none) (hr : s.rstN = true) (v : Word) :
    Inv (issue v s) := by
  have hrest : cipherRunning s = false := by simp [cipherRunning, hp]
  by_cases hc : check v s.status.keyValid s.status.nr s.regs = .ok ∧ isCipherWord v = true
  · have hst : (issue v s).status = statusStart (dirOfWord v) s.status := by rw [issue_status, if_pos hc]
    refine ⟨?_, ?_, ?_, ?_, ?_, ?_⟩
    · rw [hst]; exact ⟨h.key.noKey, h.key.sizes, h.key.schedule⟩
    · intro p hpp; rw [issue_pending] at hpp; cases hpp; rw [hst]; rfl
    · intro _
      rw [hst]
      exact ⟨.inl ⟨rfl, rfl⟩, fun p hpp => by rw [issue_pending] at hpp; cases hpp; rfl⟩
    · intro hn; simp [cipherRunning, hc] at hn
    · intro hn; simp [hr] at hn
    · rw [hst]; exact h.written
  · have hst : (issue v s).status = s.status := by rw [issue_status, if_neg hc]
    refine ⟨?_, ?_, ?_, ?_, ?_, ?_⟩
    · rw [hst]; exact h.key
    · intro p hpp; rw [issue_pending] at hpp; cases hpp; rw [hst]
    · intro hn; exact absurd (by simpa [cipherRunning] using hn) hc
    · intro _; rw [hst]; exact h.resting hrest
    · intro hn; simp [hr] at hn
    · rw [hst]; exact h.written

end Sys2Proof.Machine
end

