-- ==== Sys2Proof/Laws/PerInstr.lean ====
section
/-! SUPPORT. A law of every command's encoding, one lemma per constructor: the encoded word matches the
command's own row of the opcode table (R92, R95), whatever its operands. -/

namespace Sys2Proof.Laws.EncodingRow

/-- The word's fixed bits are the row's: the opcode, and zero in every field the format does not use. -/
def Statement (i : Instr) : Prop := encode i &&& maskOf (formatOf i) = (opcodeOf i).setWidth 32

/-- A word of fields B, A and OPC, masked to the fields format AB fixes, is its opcode. -/
theorem mask_ab (b a opc : Byte) :
    ((b.setWidth 32 <<< 16) ||| (a.setWidth 32 <<< 8) ||| opc.setWidth 32) &&& 0xFF0000FF#32 =
      opc.setWidth 32 := by
  ext k hk
  interval_cases k <;> simp

/-- A word of fields A and OPC, masked to the fields format A fixes, is its opcode. -/
theorem mask_a (a opc : Byte) :
    (((0#8).setWidth 32 <<< 16) ||| (a.setWidth 32 <<< 8) ||| opc.setWidth 32) &&& 0xFFFF00FF#32 =
      opc.setWidth 32 := by
  ext k hk
  interval_cases k <;> simp

theorem nop : Statement .nop := by unfold Statement; decide
theorem gfAdd (a b : Byte) : Statement (.gfAdd a b) := mask_ab b a _
theorem gfXtime (a : Byte) : Statement (.gfXtime a) := mask_a a _
theorem gfMul (a b : Byte) : Statement (.gfMul a b) := mask_ab b a _
theorem sbox (a : Byte) : Statement (.sbox a) := mask_a a _
theorem invSbox (a : Byte) : Statement (.invSbox a) := mask_a a _
theorem keyExpand : Statement .keyExpand := by unfold Statement; decide
theorem rotWord : Statement .rotWord := by unfold Statement; decide
theorem subWord : Statement .subWord := by unfold Statement; decide
theorem rcon (j : Nat) : Statement (.rcon j) := mask_a (BitVec.ofNat 8 j) _
theorem keyClear : Statement .keyClear := by unfold Statement; decide
theorem loadState : Statement .loadState := by unfold Statement; decide
theorem subBytes : Statement .subBytes := by unfold Statement; decide
theorem invSubBytes : Statement .invSubBytes := by unfold Statement; decide
theorem shiftRows : Statement .shiftRows := by unfold Statement; decide
theorem invShiftRows : Statement .invShiftRows := by unfold Statement; decide
theorem mixColumns : Statement .mixColumns := by unfold Statement; decide
theorem invMixColumns : Statement .invMixColumns := by unfold Statement; decide
theorem addRoundKey (j : Nat) : Statement (.addRoundKey j) := mask_a (BitVec.ofNat 8 j) _
theorem encrypt : Statement .encrypt := by unfold Statement; decide
theorem decrypt : Statement .decrypt := by unfold Statement; decide

end Sys2Proof.Laws.EncodingRow
end

