-- ==== Sys2Proof/Tests/Slice0.lean ====
section
/-! SUPPORT. The model's own tests: well-formedness, decoding of words written out field by field from the
encoding (R91 to R94), one step of each command against the spec's examples (95_test_vectors.md and the
command rules), the bus and reset, and for every statement with hypotheses a state that meets them. -/

namespace Sys2Proof.Tests

open Sys2Proof Sys2Proof.Machine

/-! ### Well-formedness -/

theorem test_wellFormed_accepts_operand_255 :
    (Instr.rcon 255).wellFormed = true ∧ (Instr.addRoundKey 255).wellFormed = true := by decide
theorem test_wellFormed_refuses_rcon_256 : (Instr.rcon 256).wellFormed = false := by decide
theorem test_wellFormed_refuses_addRoundKey_256 : (Instr.addRoundKey 256).wellFormed = false := by decide

/-! ### Decoding: RSV, B, A and OPC written out bit by bit (R91, R94) -/

/-- A command word from its four fields, most significant first (R91). -/
def word (rsv b a opc : Byte) : Word := rsv ++ b ++ a ++ opc

theorem test_decode_nop : decode (word 0b00000000 0b00000000 0b00000000 0b00000000) = .ok .nop := by decide
theorem test_decode_gfAdd :
    decode (word 0b00000000 0b10000011 0b01010111 0b00010000) = .ok (.gfAdd 0x57 0x83) := by decide
theorem test_decode_gfXtime :
    decode (word 0b00000000 0b00000000 0b01010111 0b00010001) = .ok (.gfXtime 0x57) := by decide
theorem test_decode_gfMul :
    decode (word 0b00000000 0b10000011 0b01010111 0b00010010) = .ok (.gfMul 0x57 0x83) := by decide
theorem test_decode_sbox :
    decode (word 0b00000000 0b00000000 0b01010011 0b00100000) = .ok (.sbox 0x53) := by decide
theorem test_decode_invSbox :
    decode (word 0b00000000 0b00000000 0b11101101 0b00100001) = .ok (.invSbox 0xed) := by decide
theorem test_decode_keyExpand :
    decode (word 0b00000000 0b00000000 0b00000000 0b00110000) = .ok .keyExpand := by decide
theorem test_decode_rotWord :
    decode (word 0b00000000 0b00000000 0b00000000 0b00110001) = .ok .rotWord := by decide
theorem test_decode_subWord :
    decode (word 0b00000000 0b00000000 0b00000000 0b00110010) = .ok .subWord := by decide
theorem test_decode_rcon :
    decode (word 0b00000000 0b00000000 0b00001101 0b00110011) = .ok (.rcon 13) := by decide
theorem test_decode_keyClear :
    decode (word 0b00000000 0b00000000 0b00000000 0b00110100) = .ok .keyClear := by decide
theorem test_decode_loadState :
    decode (word 0b00000000 0b00000000 0b00000000 0b01000000) = .ok .loadState := by decide
theorem test_decode_subBytes :
    decode (word 0b00000000 0b00000000 0b00000000 0b01000001) = .ok .subBytes := by decide
theorem test_decode_invSubBytes :
    decode (word 0b00000000 0b00000000 0b00000000 0b01000010) = .ok .invSubBytes := by decide
theorem test_decode_shiftRows :
    decode (word 0b00000000 0b00000000 0b00000000 0b01000011) = .ok .shiftRows := by decide
theorem test_decode_invShiftRows :
    decode (word 0b00000000 0b00000000 0b00000000 0b01000100) = .ok .invShiftRows := by decide
theorem test_decode_mixColumns :
    decode (word 0b00000000 0b00000000 0b00000000 0b01000101) = .ok .mixColumns := by decide
theorem test_decode_invMixColumns :
    decode (word 0b00000000 0b00000000 0b00000000 0b01000110) = .ok .invMixColumns := by decide
theorem test_decode_addRoundKey :
    decode (word 0b00000000 0b00000000 0b00101000 0b01000111) = .ok (.addRoundKey 40) := by decide
theorem test_decode_encrypt :
    decode (word 0b00000000 0b00000000 0b00000000 0b01010000) = .ok .encrypt := by decide
theorem test_decode_decrypt :
    decode (word 0b00000000 0b00000000 0b00000000 0b01010001) = .ok .decrypt := by decide

/-- Words that are no command, one for each reason (R95, R96; T-ERR-6, T-ERR-7). -/
theorem test_decode_rejects_by_name :
    decode (word 0 0 0 0b00110101) = .error .unassignedOpcode ∧
    decode (word 0b10000000 0 0 0b01010000) = .error .reservedNotZero ∧
    decode (word 0 0 0b00000001 0b01010000) = .error .unusedOperandNotZero ∧
    decode (word 0 0b00000001 0 0b00100000) = .error .unusedOperandNotZero := by decide

theorem test_decodeTableWord :
    decodeTableWord 32 0x00002847 = some (.addRoundKey 40) ∧ decodeTableWord 32 0x01002847 = none := by decide

/-- The examples of R98. -/
theorem test_encode :
    encode (.gfMul 0x57 0x83) = 0x00835712 ∧ encode (.addRoundKey 40) = 0x00002847 ∧
    encode .encrypt = 0x00000050 := by decide

/-! ### One step of each command -/

/-- key-128 of 95_test_vectors.md in KEY0..3. -/
def key128 : Vector Word 8 := #v[0x00010203, 0x04050607, 0x08090a0b, 0x0c0d0e0f, 0, 0, 0, 0]

/-- PT of 95_test_vectors.md. -/
def pt : Vector Word 4 := #v[0x00112233, 0x44556677, 0x8899aabb, 0xccddeeff]

/-- The input registers: key-128, PT, and the OPW of R186's example. -/
def inputs : HostRegs where
  key := key128
  keylen := 16
  blklen := 16
  din := pt
  opw := 0x09cf4f3c
  keyWritten := Vector.replicate 8 true
  dinWritten := Vector.replicate 4 true
  opwWritten := true

/-- The block with its inputs written and PT in the grid, no key expanded. -/
def loaded : State := { State.reset with regs := inputs, grid := loadBlock pt, written := ⟨false, true, 0⟩ }

/-- STATUS of a valid AES-128 key (0x00A40002). -/
def status128 : Status := { Status.reset with keyValid := true, nk := 4, nr := 10 }

/-- `loaded` with a schedule whose words 0 to 3, 5 to 8 and 40 to 43 are those of key-128 (T-KS-26), enough
for the steps tested here. -/
def slices : State :=
  { loaded with
    sched :=
      overwriteFrom 40 [0x13111d7f, 0xe3944a17, 0xf307a78b, 0x4d2b30c5]
        (overwriteFirst [0x00010203, 0x04050607, 0x08090a0b, 0x0c0d0e0f] loaded.sched)
    status := status128
    written := ⟨false, true, 60⟩ }

/-- What `f` reads after a step that goes on. -/
def seen {α : Type} (f : State → α) (o : Host.Outcome State Fault Refusal) : Option α :=
  match o with
  | .next t => some (f t)
  | .fault _ => none
  | .refused _ => none

/-- What `f` reads after command word `w` has been issued in `s` and the engine has taken one step. -/
def after {α : Type} (s : State) (w : Word) (f : State → α) : Option α :=
  seen f (step (s.withFetchWord 32 w.toNat))

/-- STATE0..3. -/
def block (s : State) : List Word := s.grid.words.toList

/-- R120's example. -/
theorem test_nop :
    after { loaded with status := { Status.reset with err := true, errcode := .illegalCommand } } 0x00000000
      (readValue 0x004) = some 0x00000004 := by decide
/-- T-CTL-12: NOP takes FSM from DONE to IDLE. -/
theorem test_nop_after_done :
    after { loaded with status := { status128 with fsm := .done, round := 10 } } 0x00000000
      (readValue 0x004) = some 0x00A40002 := by decide
theorem test_gfAdd : after loaded 0x00835710 (·.result) = some 0x000000d4 := by decide
theorem test_gfXtime : after loaded 0x00005711 (·.result) = some 0x000000ae := by decide
theorem test_gfXtime_reduces : after loaded 0x0000ff11 (·.result) = some 0x000000e5 := by decide
theorem test_gfMul : after loaded 0x00835712 (·.result) = some 0x000000c1 := by decide
theorem test_gfMul_ff : after loaded 0x00ffff12 (·.result) = some 0x00000013 := by decide
theorem test_sbox : after loaded 0x00005320 (·.result) = some 0x000000ed := by decide
theorem test_sbox_ff : after loaded 0x0000ff20 (·.result) = some 0x00000016 := by decide
theorem test_invSbox : after loaded 0x0000ed21 (·.result) = some 0x00000053 := by decide
theorem test_invSbox_00 : after loaded 0x00000021 (·.result) = some 0x00000052 := by decide
theorem test_rotWord : after loaded 0x00000031 (·.result) = some 0xcf4f3c09 := by decide
/-- R187's example. -/
theorem test_subWord :
    after { loaded with regs := { inputs with opw := 0xcf4f3c09 } } 0x00000032 (·.result) =
      some 0x8a84eb01 := by decide
theorem test_rcon : after loaded 0x00000933 (·.result) = some 0x36000000 := by decide
/-- T-ERR-8. -/
theorem test_rcon_14_is_out_of_range : after loaded 0x00000e33 (readValue 0x004) = some 0x00000604 := by
  decide
/-- T-KS-26: STATUS after the expansion. -/
theorem test_keyExpand_status : after loaded 0x00000030 (readValue 0x004) = some 0x00A40002 := by decide
/-- T-ERR-1, and R276 on a block that had a key. -/
theorem test_keyExpand_length_20 :
    after { slices with regs := { inputs with keylen := 20 } } 0x00000030 (readValue 0x004) =
      some 0x00000104 := by decide
/-- R184's example, W[4] and W[43], without the machine around it. -/
theorem test_expand :
    (expand (keyBytes key128 4) 4 10)[4]? = some 0xd6aa74fd ∧
    (expand (keyBytes key128 4) 4 10)[43]? = some 0x4d2b30c5 := by decide
/-- T-KS-32. -/
theorem test_keyClear : after slices 0x00000034 (readValue 0x004) = some 0x00000000 := by decide
theorem test_keyClear_keeps_schedule :
    after slices 0x00000034 (readValue 0x104) = some 0x04050607 := by decide
/-- T-ST-1. -/
theorem test_loadState :
    after { loaded with grid := Grid.zero } 0x00000040 block =
      some [0x00112233, 0x44556677, 0x8899aabb, 0xccddeeff] := by decide
/-- T-ST-15. -/
theorem test_loadState_blklen_15 :
    after { loaded with regs := { inputs with blklen := 15 } } 0x00000040 (readValue 0x004) =
      some 0x00000204 := by decide
/-- T-ST-2 to T-ST-7. -/
theorem test_subBytes :
    after loaded 0x00000041 block = some [0x638293c3, 0x1bfc33f5, 0xc4eeacea, 0x4bc12816] := by decide
theorem test_invSubBytes :
    after loaded 0x00000042 block = some [0x52e39466, 0x86edd302, 0x97f962fe, 0x27c9997d] := by decide
theorem test_shiftRows :
    after loaded 0x00000043 block = some [0x0055aaff, 0x4499ee33, 0x88dd2277, 0xcc1166bb] := by decide
theorem test_invShiftRows :
    after loaded 0x00000044 block = some [0x00ddaa77, 0x4411eebb, 0x885522ff, 0xcc996633] := by decide
theorem test_mixColumns :
    after loaded 0x00000045 block = some [0x22770055, 0x66334411, 0xaaff88dd, 0xeebbcc99] := by decide
theorem test_invMixColumns :
    after loaded 0x00000046 block = some [0xaaff88dd, 0xeebbcc99, 0x22770055, 0x66334411] := by decide
/-- T-ARK-3 and T-ARK-4: the largest legal offset, and the next. -/
theorem test_addRoundKey_40 :
    after slices 0x00002847 block = some [0x13003f4c, 0xa7c12c60, 0x7b9e0d30, 0x81f6de3a] := by decide
theorem test_addRoundKey_41 : after slices 0x00002947 (readValue 0x004) = some 0x00A40606 := by decide
/-- T-ENG-1, the step in INITIAL: the grid, and FSM with ROUND. -/
theorem test_encrypt_initial_step :
    after slices 0x00000050 (fun t => (block t, t.status.fsm, t.status.round)) =
      some ([0x00102030, 0x40506070, 0x8090a0b0, 0xc0d0e0f0], .round, 1) := by decide
/-- T-ERR-4. -/
theorem test_decrypt_blklen_15 :
    after { slices with regs := { inputs with blklen := 15 } } 0x00000051 (readValue 0x004) =
      some 0x00A40206 := by decide
/-- T-ENG-2, the step in INITIAL of a decryption. -/
theorem test_decrypt_initial_step :
    after { slices with
        regs := { inputs with din := #v[0x69c4e0d8, 0x6a7b0430, 0xd8cdb780, 0x70b4c55a] } } 0x00000051
      (fun t => (block t, t.status.fsm, t.status.round)) =
      some ([0x7ad5fda7, 0x89ef4e27, 0x2bca100b, 0x3d9ff59f], .round, 1) := by decide
/-- T-ERR-2, right after reset. -/
theorem test_encrypt_without_key : after State.reset 0x00000050 (readValue 0x004) = some 0x00000504 := by
  decide
/-- T-ERR-7. -/
theorem test_illegal_word : after loaded 0x00000035 (readValue 0x004) = some 0x00000404 := by decide

/-! ### The host, the bus and reset -/

/-- What `f` reads after event `e` in `s`. -/
def afterEvent {α : Type} (s : State) (e : Event) (f : State → α) : Option α :=
  seen f (step { s with events := [e] })

/-- T-CTL-3. -/
theorem test_keylen_keeps_low_byte :
    afterEvent loaded (.write 0x008 32 0x12345610) (readValue 0x008) = some 0x00000010 := by decide
/-- T-CTL-6. -/
theorem test_status_write_clears_err_and_ovr :
    afterEvent { loaded with status := { status128 with err := true, ovr := true } }
      (.write 0x004 32 0xffffffff) (readValue 0x004) = some 0x00A40002 := by decide
/-- T-CTL-5. -/
theorem test_state_is_read_only :
    afterEvent loaded (.write 0x050 32 0x12345678) (readValue 0x050) = some 0x00112233 := by decide
/-- T-CTL-10. -/
theorem test_busy_after_issue :
    afterEvent loaded (.write 0x000 32 0x00000000) (readValue 0x004) = some 0x00000001 := by decide
/-- T-CTL-7, the dropped write: OVR. -/
theorem test_cmd_while_busy_sets_ovr :
    afterEvent (issue 0x00000041 loaded) (.write 0x000 32 0x00000000)
      (fun t => (t.status.ovr, t.pending.map (·.cmd))) = some (true, some 0x00000041) := by decide
/-- T-CTL-13. -/
theorem test_reset_abandons_the_command :
    afterEvent (issue 0x00000050 slices) (.rst false) (readValue 0x004) = some 0x00000000 := by decide
/-- The window of R61 at base 0x1000, its last word and the first address beyond it. -/
theorem test_windowOffset :
    windowOffset 0x1000 0x11FC = some 0x1FC ∧ windowOffset 0x1000 0x1200 = none := by decide
/-- The offsets of R62 at the edges of the banks. -/
theorem test_regAt_edges :
    regAt 0x01C = .reserved ∧ regAt 0x020 = .key 0 ∧ regAt 0x03C = .key 7 ∧ regAt 0x040 = .din 0 ∧
    regAt 0x050 = .state 0 ∧ regAt 0x060 = .reserved ∧ regAt 0x100 = .sched 0 ∧ regAt 0x1EC = .sched 59 ∧
    regAt 0x1F0 = .reserved := by decide
/-- R70's reading of hex text, and R100's CLRERR. -/
theorem test_wordsOfHex :
    wordsOfHex [0, 0, 1, 1, 2, 2, 3, 3] = [0x00112233] ∧
    expandPseudo 12 .clrErr = [.wr .status 0x0000000C] := by decide
/-- R100: WAIT at line 5. -/
theorem test_expand_wait : expandPseudo 5 .wait = [.rd .status, .bnz .status 0 1 5] := by decide
/-- R99: a host turn that reads RESULT keeps the value read. -/
theorem test_host_turn_reads :
    (match hostTurn ⟨[.rd .result], 0, []⟩ { loaded with result := 0x000000c1 } with
      | .next (h, _) => some h
      | .fault _ => none
      | .refused _ => none) = some ⟨[.rd .result], 1, [(.result, 0x000000c1)]⟩ := by decide

/-! ### Witnesses: for every statement with hypotheses, a state and operands that meet them -/

/-- key-128 expanded, PT in the grid and in DIN, no command in flight. -/
def keyed : State :=
  { loaded with
    sched := overwriteFirst (expand (keyBytes key128 4) 4 10) loaded.sched
    status := status128
    written := ⟨false, true, 44⟩ }

theorem expand_length : (expand (keyBytes key128 4) 4 10).length = 44 := by decide

/-- `keyed` meets the invariant. -/
theorem keyed_inv : Inv keyed where
  key := by
    refine ⟨fun h => (by cases h), fun _ => .inl ⟨rfl, rfl⟩, fun _ => ⟨key128, fun i hi => ?_⟩⟩
    have hi' : i.val < (expand (keyBytes key128 4) 4 10).length := expand_length ▸ hi
    refine (overwriteFirst_getElem _ _ i.val i.isLt).trans ?_
    simp only [List.getD_eq_getElem _ _ hi']
    exact (List.getD_eq_getElem _ _ hi').symm
  verdict := fun p h => by cases h
  running := fun h => by cases h
  resting := fun _ => .inl ⟨rfl, rfl⟩
  held := fun h => by cases h
  written := by decide

/-- The block right after reset meets the invariant. -/
theorem reset_inv : Inv State.reset where
  key := ⟨fun _ => ⟨rfl, rfl⟩, fun h => (by cases h), fun h => by cases h⟩
  verdict := fun p h => by cases h
  running := fun h => by cases h
  resting := fun _ => .inl ⟨rfl, rfl⟩
  held := fun h => by cases h
  written := by decide

/-- A block just after the issue of `w` meets the invariant. -/
theorem issued_inv (w : Word) : Inv (issue w keyed) := inv_issue keyed_inv rfl rfl w

/-- The same with the engine's turn next. -/
theorem ready_inv (w : Word) : Inv (fetchReady w keyed) :=
  inv_issue (s := { keyed with rstN := true, events := [.engine] })
    ⟨keyed_inv.key, keyed_inv.verdict, keyed_inv.running, keyed_inv.resting, fun h => (by cases h),
      keyed_inv.written⟩ rfl rfl w

/-- A block held in reset meets the invariant. -/
theorem held_inv (s : State) : Inv (setRst false s) where
  key := ⟨fun _ => ⟨rfl, rfl⟩, fun h => (by cases h), fun h => by cases h⟩
  verdict := fun p h => by cases h
  running := fun h => by cases h
  resting := fun _ => .inl ⟨rfl, rfl⟩
  held := fun _ => ⟨rfl, rfl, rfl⟩
  written := ⟨fun h => (by cases h), Nat.zero_le 60⟩

/-- STATUS with ERR and OVR set, no command in flight. -/
def flagged : State := { loaded with status := { Status.reset with err := true, ovr := true } }

/-- Word `w`, issued in the block with a key, is accepted as command `i`. -/
def IsAccepted (w : Word) (i : Instr) : Prop := ∃ p, Accepted i (issue w keyed) p

/-- A word that decodes to `i` and passes its check is accepted as `i`. -/
theorem isAccepted {w : Word} {i : Instr} (h : decode w = .ok i) (h' : check w true 10 inputs = .ok) :
    IsAccepted w i := ⟨_, ⟨rfl, h⟩, h'⟩

theorem witness_DecodeOfEncodeIsTheCommand : (Instr.rcon 255).wellFormed = true := by decide
theorem witness_EncodeOfDecodeIsTheWord : decode 0x0000ff47 = .ok (.addRoundKey 255) := by decide
/-- Idle, a word accepted as a cipher command, one rejected. -/
theorem witness_CmdWriteIssuesWhenIdle :
    ∃ s : State, s.rstN = true ∧ s.pending = none ∧ s.events = [.write 0x000 32 0x00000051] ∧
      check 0x00000051 s.status.keyValid s.status.nr s.regs = .ok ∧
      check 0x00000e33 s.status.keyValid s.status.nr s.regs ≠ .ok :=
  ⟨{ keyed with events := [.write 0x000 32 0x00000051] }, rfl, rfl, rfl, by decide, by decide⟩
theorem witness_CmdWriteWhileBusyOnlySetsOvr :
    ∃ s : State, s.rstN = true ∧ s.busy = true ∧ s.events = [.write 0x000 32 0x00000000] :=
  ⟨{ issue 0x00000050 keyed with events := [.write 0x000 32 0x00000000] }, rfl, rfl, rfl⟩
/-- Both clauses: with no event waiting, and with the engine's turn next. -/
theorem witness_EngineTurnRunsTheDecodedCommand :
    ∃ s t : State, ∃ p q, s.rstN = true ∧ InFlight .keyClear s p ∧ s.events = [] ∧
      t.rstN = true ∧ InFlight .keyClear t q ∧ t.events = [.engine] :=
  ⟨issue 0x00000034 keyed, fetchReady 0x00000034 keyed, _, _, rfl, ⟨rfl, by decide⟩, rfl, rfl,
    ⟨rfl, by decide⟩, rfl⟩
theorem not_ok_of_error {w : Word} {e : DecodeError} (h : decode w = .error e) (i : Instr) :
    decode w ≠ .ok i := by rw [h]; exact fun h => by cases h
/-- Both clauses: with no event waiting, and with the engine's turn next. -/
theorem witness_IllegalWordCompletesWithIllegalCommand :
    ∃ s t : State, ∃ p q, s.rstN = true ∧ s.pending = some p ∧ (∀ i, decode p.cmd ≠ .ok i) ∧ s.events = [] ∧
      t.rstN = true ∧ t.pending = some q ∧ (∀ i, decode q.cmd ≠ .ok i) ∧ t.events = [.engine] :=
  ⟨issue 0x00000035 keyed, fetchReady 0x00000035 keyed, _, _, rfl, rfl,
    not_ok_of_error (e := .unassignedOpcode) (by decide), rfl, rfl, rfl,
    not_ok_of_error (e := .unassignedOpcode) (by decide), rfl⟩
/-- A failing command that decodes, an illegal word, and INVALID_KEY_LENGTH; no event, and the engine's turn. -/
theorem witness_FailedCommandOnlyCompletes :
    (∃ s : State, ∃ p, Inv s ∧ s.rstN = true ∧ s.pending = some p ∧ p.verdict = .range ∧
      decode p.cmd = .ok (.addRoundKey 41) ∧ s.events = []) ∧
    (∃ s : State, ∃ p, Inv s ∧ s.rstN = true ∧ s.pending = some p ∧ p.verdict = .illegalCommand ∧
      s.events = [.engine]) ∧
    ∃ s : State, ∃ p, Inv s ∧ s.rstN = true ∧ s.pending = some p ∧ p.verdict = .invalidKeyLength :=
  ⟨⟨issue 0x00002947 keyed, _, issued_inv _, rfl, rfl, by decide, by decide, rfl⟩,
    ⟨fetchReady 0x00000035 keyed, _, ready_inv _, rfl, rfl, by decide, rfl⟩,
    ⟨issue 0x00000030 State.reset, _, inv_issue reset_inv rfl rfl _, rfl, rfl, by decide⟩⟩
theorem witness_InvalidKeyLengthClearsTheKey :
    ∃ p, InFlight .keyExpand (issue 0x00000030 State.reset) p ∧ p.verdict = .invalidKeyLength :=
  ⟨_, ⟨rfl, by decide⟩, by decide⟩
theorem witness_NopOnlyCompletes : IsAccepted 0x00000000 .nop := isAccepted (by decide) (by decide)
theorem witness_FieldCommandsWriteResult :
    IsAccepted 0x00835710 (.gfAdd 0x57 0x83) ∧ IsAccepted 0x0000ff11 (.gfXtime 0xff) ∧
    IsAccepted 0x00ffff12 (.gfMul 0xff 0xff) :=
  ⟨isAccepted (by decide) (by decide), isAccepted (by decide) (by decide),
    isAccepted (by decide) (by decide)⟩
theorem witness_SubstitutionCommandsWriteResult :
    IsAccepted 0x0000ff20 (.sbox 0xff) ∧ IsAccepted 0x00000021 (.invSbox 0) :=
  ⟨isAccepted (by decide) (by decide), isAccepted (by decide) (by decide)⟩
theorem witness_WordCommandsWriteResult : IsAccepted 0x00000031 .rotWord ∧ IsAccepted 0x00000032 .subWord :=
  ⟨isAccepted (by decide) (by decide), isAccepted (by decide) (by decide)⟩
theorem witness_RconWritesPowerOfX : IsAccepted 0x00000033 (.rcon 0) ∧ IsAccepted 0x00000d33 (.rcon 13) :=
  ⟨isAccepted (by decide) (by decide), isAccepted (by decide) (by decide)⟩
/-- Each of the three key lengths. -/
theorem witness_KeyExpandWritesSchedule :
    ∀ len : Byte, len = 16 ∨ len = 24 ∨ len = 32 →
      ∃ p, Accepted .keyExpand (issue 0x00000030 { keyed with regs := { inputs with keylen := len } }) p ∧
        p.snap.keylen = len := by
  rintro len (rfl | rfl | rfl) <;> exact ⟨_, ⟨⟨rfl, by decide⟩, by decide⟩, rfl⟩
/-- The first word, the first derived word and the last word of the longest schedule. -/
theorem witness_ExpansionFollowsTheRecurrence :
    (keyBytes key128 8).length = 4 * 8 ∧ (0 < 8 ∧ 8 ≤ 8 ∧ 59 < 4 * (14 + 1)) := by decide
theorem witness_KeyClearEndsTheInstance : IsAccepted 0x00000034 .keyClear :=
  isAccepted (by decide) (by decide)
theorem witness_LoadStateFillsTheGrid : IsAccepted 0x00000040 .loadState :=
  isAccepted (by decide) (by decide)
theorem witness_ByteAndRowTransformsMapTheGrid :
    IsAccepted 0x00000041 .subBytes ∧ IsAccepted 0x00000042 .invSubBytes ∧
    IsAccepted 0x00000043 .shiftRows ∧ IsAccepted 0x00000044 .invShiftRows ∧
    (∃ d : Fin 4, d.val = (3 + 3) % 4) ∧ ∃ d : Fin 4, d.val = (0 + 4 - 3) % 4 :=
  ⟨isAccepted (by decide) (by decide), isAccepted (by decide) (by decide),
    isAccepted (by decide) (by decide), isAccepted (by decide) (by decide), ⟨2, rfl⟩, ⟨1, rfl⟩⟩
theorem witness_ColumnTransformsMultiplyByTheMatrix :
    IsAccepted 0x00000045 .mixColumns ∧ IsAccepted 0x00000046 .invMixColumns ∧
    ∃ k1 k2 k3 : Fin 4, k1 = 3 + 1 ∧ k2 = 3 + 2 ∧ k3 = 3 + 3 :=
  ⟨isAccepted (by decide) (by decide), isAccepted (by decide) (by decide), _, _, _, rfl, rfl, rfl⟩
/-- The first and the largest offset AES-128 accepts. -/
theorem witness_AddRoundKeyXorsTheSlice :
    IsAccepted 0x00000047 (.addRoundKey 0) ∧ IsAccepted 0x00002847 (.addRoundKey 40) ∧
    ∃ i : Fin 60, i.val = 40 + 3 :=
  ⟨isAccepted (by decide) (by decide), isAccepted (by decide) (by decide), ⟨43, by decide⟩, rfl⟩
/-- INITIAL, for both commands. -/
theorem witness_SequencerInitialStep :
    (∃ p, Accepted .encrypt (issue 0x00000050 keyed) p) ∧ (issue 0x00000050 keyed).status.fsm = .initial ∧
    (∃ p, Accepted .decrypt (issue 0x00000051 keyed) p) ∧ (issue 0x00000051 keyed).status.fsm = .initial ∧
    (issue 0x00000051 keyed).status.dir = .decrypt :=
  ⟨isAccepted (by decide) (by decide), by decide, isAccepted (by decide) (by decide), by decide, by decide⟩
/-- An accepted ENCRYPT at sequencer position (f, r). -/
def atPosition (f : Fsm) (r : BitVec 4) : State :=
  { issue 0x00000050 keyed with status := { status128 with fsm := f, round := r } }
/-- Rounds 1 and NR - 1. -/
theorem witness_SequencerRoundStep :
    (∃ p, Accepted .encrypt (atPosition .round 1) p) ∧ (atPosition .round 1).status.fsm = .round ∧
    (atPosition .round 1).status.round.toNat = 1 ∧
    (∃ p, Accepted .encrypt (atPosition .round 9) p) ∧ (atPosition .round 9).status.round.toNat = 9 ∧
    9 ≤ (atPosition .round 9).status.nr.toNat - 1 :=
  ⟨⟨_, ⟨rfl, by decide⟩, by decide⟩, rfl, rfl, ⟨_, ⟨rfl, by decide⟩, by decide⟩, rfl, by decide⟩
theorem witness_SequencerFinalStep :
    (∃ p, Accepted .encrypt (atPosition .final 10) p) ∧ (atPosition .final 10).status.fsm = .final ∧
    (atPosition .final 10).status.round = (atPosition .final 10).status.nr :=
  ⟨⟨_, ⟨rfl, by decide⟩, by decide⟩, rfl, rfl⟩
theorem witness_SequencerComputesTheCipher :
    ∃ s : State, ∃ p, Inv s ∧ s.rstN = true ∧ s.events = [] ∧ Accepted .encrypt s p ∧
      s.status.fsm = .initial :=
  ⟨issue 0x00000050 keyed, _, issued_inv _, rfl, rfl, ⟨⟨rfl, by decide⟩, by decide⟩, by decide⟩
/-- A command of one step, and one of NR + 1. -/
theorem witness_EveryCommandCompletesInItsStepCount :
    ∃ s t : State, Inv s ∧ s.rstN = true ∧ s.events = [] ∧ s.busy = true ∧ stepsAtIssue s = 1 ∧
      Inv t ∧ t.rstN = true ∧ t.events = [] ∧ t.busy = true ∧ t.status.fsm = .initial ∧
      stepsAtIssue t = 11 :=
  ⟨issue 0x00000030 keyed, issue 0x00000051 keyed, issued_inv _, rfl, rfl, rfl, by decide, issued_inv _, rfl,
    rfl, rfl, by decide, by decide⟩
/-- A step of the engine while the sequencer runs. -/
theorem witness_SequencerTransitionsAreTheListedOnes :
    ∃ s t : State, Inv s ∧ step s = .next t ∧ (∀ es, s.events ≠ .rst false :: es) ∧
      cipherRunning s = true :=
  ⟨issue 0x00000050 keyed, _, issued_inv _, engineStep_eq _, fun _ h => (by cases h), by decide⟩
/-- The first offset (CMD, which reads 0), the first reserved one and the last of the window. -/
theorem witness_HostReadHasNoSideEffect :
    ∃ s : State, s.rstN = true ∧ s.events = [.read 0x1FC 32] ∧ 0x1FC % 4 = 0 ∧ 0x1FC < 512 ∧
      regAt 0x000 = .cmd ∧ regAt 0x018 = .reserved ∧ regAt 0x1FC = .reserved :=
  ⟨{ keyed with events := [.read 0x1FC 32] }, rfl, rfl, by decide, by decide, by decide, by decide,
    by decide⟩
theorem witness_ReadsReturnTheRegisters : keyed.pending = none ∧ (0x1FC % 4 = 0 ∧ 0x1FC < 0x200) :=
  ⟨rfl, by decide⟩
/-- KEYLEN, OPW, the first KEY and the last DIN register; beside them STATE0 while BUSY = 0, and while BUSY = 1
the registers around RESULT, STATE and SCHED. -/
theorem witness_WrittenInputReadsBackAndAloneChanges :
    (∀ off, off = 0x008 ∨ off = 0x010 ∨ off = 0x020 ∨ off = 0x04C →
      ∃ s : State, s.rstN = true ∧ off % 4 = 0 ∧ off < 512 ∧ s.events = [.write off 32 1] ∧ s.busy = true) ∧
    (keyed.busy = false ∧ 0x050 % 4 = 0 ∧ 0x050 < 512 ∧ 0x050 ≠ 0x04C) ∧
    ∀ a, a = 0x010 ∨ a = 0x018 ∨ a = 0x04C ∨ a = 0x060 ∨ a = 0x0FC ∨ a = 0x1F0 →
      a % 4 = 0 ∧ a < 512 ∧ a ≠ 0x014 ∧ ¬(0x050 ≤ a ∧ a < 0x060) ∧ ¬(0x100 ≤ a ∧ a < 0x1F0) := by
  refine ⟨fun off h => ⟨{ issue 0x00000050 keyed with events := [.write off 32 1] }, rfl, ?_, ?_, rfl, rfl⟩,
    ⟨rfl, by decide⟩, ?_⟩
  · omega
  · omega
  · intro a h; omega
/-- RESULT, the last reserved offset before the KEY bank, STATE0 and the window's last offset; STATUS. -/
theorem witness_OtherWritesHaveNoOtherEffect :
    ∀ off, off = 0x014 ∨ off = 0x01C ∨ off = 0x050 ∨ off = 0x1FC ∨ off = 0x004 →
      ∃ s : State, s.rstN = true ∧ s.events = [.write off 32 0xffffffff] ∧ off % 4 = 0 :=
  fun off h => ⟨{ flagged with events := [.write off 32 0xffffffff] }, rfl, rfl, by omega⟩
/-- A narrow access, a misaligned one, the first offset outside the window and the last inside. -/
theorem witness_OnlyImpossibleAccessesStop :
    step { keyed with events := [.write 0x020 8 1] } = .refused .accessNotPresentable ∧
    step { keyed with events := [.read 0x022 32] } = .refused .accessNotPresentable ∧
    step { keyed with events := [.read 0x200 32] } = .fault .outsideWindow ∧
    ∃ t, step { keyed with events := [.read 0x1FC 32] } = .next t := ⟨rfl, rfl, rfl, _, rfl⟩
theorem witness_BusyReadsDoNotShowResults : (issue 0x00000040 keyed).busy = true := rfl
theorem witness_InputWritesDoNotDisturbTheCommand : (0x020 ≤ 0x04C ∧ 0x04C < 0x050) := by decide
theorem witness_EngineLeavesTheHostsRegisters : ∃ t, exec .encrypt (issue 0x00000050 keyed) = .next t :=
  ⟨_, exec_eq _ _⟩
/-- Issue, completion, and abandonment by reset. -/
theorem witness_BusyChangesOnlyAtIssueCompletionAndReset :
    (∃ s t : State, step s = .next t ∧ s.rstN = true ∧ s.events = [.write 0x000 32 0x00000034] ∧
      s.busy = false ∧ t.busy = true) ∧
    (∃ s t : State, step s = .next t ∧ s.busy = true ∧ t.busy = false ∧ s.events = [.engine]) ∧
    ∃ s t : State, step s = .next t ∧ s.busy = true ∧ t.busy = false ∧ s.events = [.rst false] :=
  ⟨⟨{ keyed with events := [.write 0x000 32 0x00000034] }, _, rfl, rfl, rfl, rfl, rfl⟩,
    ⟨fetchReady 0x00000000 keyed, _, rfl, rfl, rfl, rfl⟩,
    ⟨{ issue 0x00000050 keyed with events := [.rst false] }, _, rfl, rfl, rfl, rfl⟩⟩
/-- Set by a completion with an error; cleared by a STATUS write; cleared by reset. -/
theorem witness_ErrIsSticky :
    (∃ s t : State, step s = .next t ∧ s.busy = true ∧ t.busy = false ∧ s.status.err = false ∧
      t.status.err = true ∧ t.status.errcode ≠ .ok) ∧
    (∃ s t : State, step s = .next t ∧ s.status.err = true ∧ t.status.err = false ∧
      s.events = [.write 0x004 32 0x4]) ∧
    ∃ s t : State, step s = .next t ∧ s.status.err = true ∧ t.status.err = false ∧
      s.events = [.rst false] :=
  ⟨⟨fetchReady 0x00000035 loaded, _, rfl, rfl, rfl, rfl, by decide, by decide⟩,
    ⟨{ flagged with events := [.write 0x004 32 0x4] }, _, rfl, rfl, rfl, rfl⟩,
    ⟨{ flagged with events := [.rst false] }, _, rfl, rfl, rfl, rfl⟩⟩
/-- Set by a CMD write while busy; cleared by a STATUS write; cleared by reset. -/
theorem witness_OvrIsSticky :
    (∃ s t : State, step s = .next t ∧ s.rstN = true ∧ s.busy = true ∧ s.status.ovr = false ∧
      t.status.ovr = true ∧ s.events = [.write 0x000 32 0x0]) ∧
    (∃ s t : State, step s = .next t ∧ s.status.ovr = true ∧ t.status.ovr = false ∧
      s.events = [.write 0x004 32 0x8]) ∧
    ∃ s t : State, step s = .next t ∧ s.status.ovr = true ∧ t.status.ovr = false ∧
      s.events = [.rst false] :=
  ⟨⟨{ issue 0x00000041 loaded with events := [.write 0x000 32 0x0] }, _, rfl, rfl, rfl, rfl, rfl, rfl⟩,
    ⟨{ flagged with events := [.write 0x004 32 0x8] }, _, rfl, rfl, rfl, rfl⟩,
    ⟨{ flagged with events := [.rst false] }, _, rfl, rfl, rfl, rfl⟩⟩
theorem witness_ErrcodeChangesOnlyAtCompletion :
    ∃ s t : State, Inv s ∧ step s = .next t ∧ s.pending.isSome = true ∧ t.busy = false ∧
      (∀ es, s.events ≠ .rst false :: es) ∧ t.status.errcode ≠ s.status.errcode :=
  ⟨issue 0x00000e33 keyed, _, issued_inv _, rfl, rfl, by decide, fun _ h => (by cases h), by decide⟩
theorem witness_KeyFieldsChangeOnlyByKeyCommands :
    ∃ s t : State, Inv s ∧ step s = .next t ∧ (∀ es, s.events ≠ .rst false :: es) ∧
      t.status.keyValid ≠ s.status.keyValid :=
  ⟨issue 0x00000034 keyed, _, issued_inv _, rfl, fun _ h => (by cases h), by decide⟩
/-- KEY_EXPAND of a key over an empty schedule. -/
theorem witness_OnlyKeyExpandWritesTheSchedule :
    ∃ s t : State, step s = .next t ∧ (∀ es, s.events ≠ .rst false :: es) ∧ t.sched ≠ s.sched := by
  refine ⟨issue 0x00000030 loaded, _, engineStep_eq _, fun _ h => (by cases h), fun h => ?_⟩
  have h0 : (overwriteFirst (scheduleOf inputs) loaded.sched)[0] = 0 :=
    congrArg (fun v : Vector Word 60 => v[0]) h
  rw [overwriteFirst_getElem] at h0
  exact absurd h0 (by decide)
theorem witness_OnlyTheirCommandsWriteResultAndGrid :
    (∃ s t : State, step s = .next t ∧ (∀ es, s.events ≠ .rst false :: es) ∧ t.result ≠ s.result) ∧
    ∃ s t : State, step s = .next t ∧ (∀ es, s.events ≠ .rst false :: es) ∧ t.grid ≠ s.grid :=
  ⟨⟨issue 0x00005320 loaded, _, engineStep_eq _, fun _ h => (by cases h), by decide⟩,
    ⟨issue 0x00000043 loaded, _, engineStep_eq _, fun _ h => (by cases h), by decide⟩⟩
theorem witness_InvariantKeptByEveryStep :
    ∃ s t : State, Inv s ∧ step s = .next t ∧ s.busy = true ∧ t.status ≠ s.status :=
  ⟨issue 0x00000034 keyed, _, issued_inv _, engineStep_eq _, rfl, by decide⟩
/-- A fall of rst_n with a command in flight, a rise of rst_n, and a block that has been through both. -/
theorem witness_ResetLeavesTheStatedValues :
    (∃ s : State, s.busy = true ∧ s.events = [.rst false]) ∧
    (∃ s : State, s.rstN = false ∧ s.events = [.rst true]) ∧
    ∃ s t : State, t ≠ State.reset ∧ t = setRst true (setRst false s) :=
  ⟨⟨{ issue 0x00000050 slices with events := [.rst false] }, rfl, rfl⟩,
    ⟨{ setRst false slices with events := [.rst true] }, rfl, rfl⟩,
    { issue 0x00000050 slices with epoch := 1 }, _, fun h => absurd (congrArg (·.epoch) h) (by decide), rfl⟩
/-- A write, a read and the engine's turn in reset; a fall of rst_n with a command in flight. -/
theorem witness_HeldInResetNothingHappens :
    (∃ s : State, Inv s ∧ s.rstN = false ∧ s.events = [.write 0x1FC 32 1]) ∧
    (0x1FC % 4 = 0 ∧ 0x1FC < 512) ∧
    ∃ s : State, s.busy = true ∧ s.events = [.rst false] :=
  ⟨⟨setRst false { State.reset with events := [.write 0x1FC 32 1] }, held_inv _, rfl, rfl⟩, by decide, { issue 0x00000050 keyed with events := [.rst false] }, rfl, rfl⟩
/-- One word for each error. -/
theorem witness_AfterResetOnlyKeylessCommandsAreAccepted :
    decode 0x00000050 = .ok .encrypt ∧ decode 0x00000030 = .ok .keyExpand ∧
    decode 0x00000040 = .ok .loadState ∧ decode 0x00000e33 = .ok (.rcon 14) ∧
    check 0x00000e33 State.reset.status.keyValid State.reset.status.nr State.reset.regs = .range ∧
    check 0x00000d33 State.reset.status.keyValid State.reset.status.nr State.reset.regs = .ok := by decide
/-- Two states that differ in OPW, RESULT, the grid and the schedule, none written since reset. -/
theorem witness_UnwrittenDataNeverMatters :
    ∃ s t : State, s.Agree t ∧ s ≠ t ∧ stepUsesWritten s = true ∧ s.busy = true := by
  let q : State := { State.reset with result := 1, grid := loadBlock pt, regs := { HostRegs.reset with opw := 1 } }
  have hr : (issue 0x00005320 State.reset).regs.Agree (issue 0x00005320 q).regs :=
    ⟨rfl, rfl, rfl, rfl, rfl, by decide, by decide, by decide⟩
  refine ⟨issue 0x00005320 State.reset, issue 0x00005320 q, ?_, ?_, by decide, rfl⟩
  · refine ⟨rfl, hr, rfl, rfl, ?_, rfl, by decide, by decide, by decide, rfl, rfl, rfl⟩
    intro a b ha hb
    cases ha; cases hb
    exact ⟨rfl, rfl, hr⟩
  · exact fun h => absurd (congrArg (·.result) h) (by decide)
theorem witness_SboxIsAffineOfTheInverse : multiply 0x53 0xca = 1 := by decide
theorem witness_ByteOrderIsTheSpecs : ∃ k : Fin 8, k.val < 8 ∧ k.val = 7 := ⟨7, by decide, by decide⟩
/-- Round 1 of AES-128, and round NR - 1. -/
theorem witness_SingleTransformsComputeARound :
    Inv keyed ∧ keyed.rstN = true ∧ keyed.pending = none ∧ keyed.status.keyValid = true ∧
    1 ≤ 9 ∧ 9 < keyed.status.nr.toNat :=
  ⟨keyed_inv, rfl, rfl, rfl, by decide, by decide⟩

end Sys2Proof.Tests
end

section
/-! PROOFS. The flags of STATUS that the rules of 10_state.md speak of (BUSY, ERR, OVR and ERRCODE): what a
host write, an engine step and a step of the block do to them, said once, and the statements that follow. -/

namespace Sys2Proof.Machine

/-! ### What a host write does -/

theorem regAt_eq_cmd_iff {off : Nat} : regAt off = .cmd ↔ off = 0x000 := by
  unfold regAt
  split_ifs <;> simp_all

theorem regAt_eq_status_iff {off : Nat} : regAt off = .status ↔ off = 0x004 := by
  unfold regAt
  split_ifs <;> simp_all

/-- A write to CMD (R113). -/
theorem hostWrite_cmd {s : State} (hr : s.rstN = true) (v : Word) :
    hostWrite 0x000 v s = writeCmd v s := by
  simp [hostWrite, hr, regAt, writeReg]

/-- A write to STATUS (R37). -/
theorem hostWrite_status {s : State} (hr : s.rstN = true) (v : Word) :
    hostWrite 0x004 v s = { s with status := statusWrite v s.status } := by
  simp [hostWrite, hr, regAt, writeReg]

/-- The offsets from RESULT on that are no KEY and no DIN register name read-only registers or none (R62). -/
theorem regAt_readOnly {off : Nat}
    (ho : off = 0x014 ∨ 0x018 ≤ off ∧ off < 0x020 ∨ 0x050 ≤ off ∧ off < 0x200) :
    regAt off = .result ∨ (∃ c, regAt off = .state c) ∨ (∃ i, regAt off = .sched i) ∨
      regAt off = .reserved := by
  generalize hr : regAt off = r
  unfold regAt at hr
  split_ifs at hr <;> subst hr <;> simp <;> omega

/-- RESULT, STATE, SCHED and the reserved offsets accept no write (R64). -/
theorem hostWrite_readOnly {off : Nat} (s : State) (v : Word)
    (ho : off = 0x014 ∨ 0x018 ≤ off ∧ off < 0x020 ∨ 0x050 ≤ off ∧ off < 0x200) :
    hostWrite off v s = s := by
  unfold hostWrite
  rcases regAt_readOnly ho with h | ⟨_, h⟩ | ⟨_, h⟩ | h <;> simp [h, writeReg]

/-- A host write is a CMD write, a STATUS write, or changes input registers at most. -/
theorem hostWrite_cases (off : Nat) (v : Word) (s : State) :
    (off = 0x000 ∧ s.rstN = true ∧ hostWrite off v s = writeCmd v s) ∨
    (off = 0x004 ∧ s.rstN = true ∧ hostWrite off v s = { s with status := statusWrite v s.status }) ∨
    ∃ r : HostRegs, hostWrite off v s = { s with regs := r } := by
  by_cases hr : s.rstN = true
  · have hw : hostWrite off v s = writeReg (regAt off) v s := if_pos hr
    cases hreg : regAt off with
    | cmd => exact .inl ⟨regAt_eq_cmd_iff.1 hreg, hr, by rw [hw, hreg]; rfl⟩
    | status => exact .inr (.inl ⟨regAt_eq_status_iff.1 hreg, hr, by rw [hw, hreg]; rfl⟩)
    | keylen | blklen | opw | key | din | result | state | sched | reserved =>
      exact .inr (.inr ⟨_, by rw [hw, hreg]; rfl⟩)
  · exact .inr (.inr ⟨s.regs, if_neg hr⟩)

/-- The step that performs a host write (R64, R74). -/
theorem step_write {s : State} {off : Nat} {v : Word} {es : List Event}
    (he : s.events = .write off 32 v :: es) (h4 : off % 4 = 0) (hlt : off < 512) :
    step s = .next (hostWrite off v { s with events := es }).tick := by
  unfold step
  rw [he]
  exact busAccess_ok _ _ h4 hlt

/-! ### Flags kept, and flags after a completion -/

/-- From `s` to `t` the pending record (and so BUSY), ERR, OVR and ERRCODE stay. -/
structure KeepsFlags (s t : State) : Prop where
  pending : t.pending = s.pending
  err : t.status.err = s.status.err
  ovr : t.status.ovr = s.status.ovr
  errcode : t.status.errcode = s.status.errcode

/-- From `s` to `t` a command completes with code `e`, as far as BUSY, ERR, OVR and ERRCODE show it
(R115). -/
structure CompletesWith (e : ErrCode) (s t : State) : Prop where
  pending : t.pending = none
  err : t.status.err = (s.status.err || e != .ok)
  ovr : t.status.ovr = s.status.ovr
  errcode : t.status.errcode = e

/-- The code with which a command in flight completes: its verdict, or ILLEGAL_COMMAND (R115, R272). -/
def completionCode (p : Pending) : ErrCode :=
  match decode p.cmd with
  | .ok _ => p.verdict
  | .error _ => .illegalCommand

theorem KeepsFlags.trans {s u t : State} (h : KeepsFlags s u) (h' : KeepsFlags u t) : KeepsFlags s t :=
  ⟨h'.pending.trans h.pending, h'.err.trans h.err, h'.ovr.trans h.ovr, h'.errcode.trans h.errcode⟩

theorem KeepsFlags.completesWith {e : ErrCode} {s u t : State} (h : KeepsFlags s u)
    (h' : CompletesWith e u t) : CompletesWith e s t :=
  ⟨h'.pending, by rw [h'.err, h.err], h'.ovr.trans h.ovr, h'.errcode⟩

theorem keepsFlags_tick (s : State) : KeepsFlags s s.tick := ⟨rfl, rfl, rfl, rfl⟩

theorem keepsFlags_events (s : State) (es : List Event) : KeepsFlags s { s with events := es } :=
  ⟨rfl, rfl, rfl, rfl⟩

theorem completesWith_complete (s : State) (cmd : Word) (e : ErrCode) :
    CompletesWith e s (s.complete cmd e) :=
  ⟨rfl, rfl, rfl, rfl⟩

theorem completesWith_fail (s : State) (cmd : Word) (e : ErrCode) :
    CompletesWith e s (s.fail cmd e) := by
  have hkey : KeepsFlags s (if e = .invalidKeyLength then s.clearKey else s) := by
    split <;> exact ⟨rfl, rfl, rfl, rfl⟩
  exact hkey.completesWith (completesWith_complete _ cmd e)

/-! ### What the engine does to the flags -/

theorem keepsFlags_effectOf (i : Instr) (p : Pending) (s : State) : KeepsFlags s (effectOf i p s) := by
  cases i <;> exact ⟨rfl, rfl, rfl, rfl⟩

/-- A sequencer step keeps the flags until the final one, which completes with success (R244 to R246). -/
theorem sequencerStep_flags (p : Pending) (s : State) :
    KeepsFlags s (sequencerStep p s) ∨ CompletesWith .ok s (sequencerStep p s) := by
  unfold sequencerStep
  split
  case h_3 => exact .inr ⟨rfl, rfl, rfl, rfl⟩
  all_goals exact .inl ⟨rfl, rfl, rfl, rfl⟩

/-- The step of an accepted command keeps the flags or completes it with success. -/
theorem acceptedStep_flags (i : Instr) (p : Pending) (s : State) :
    KeepsFlags s (acceptedStep i p s) ∨ CompletesWith .ok s (acceptedStep i p s) := by
  unfold acceptedStep
  split
  case h_3 => exact .inr ((keepsFlags_effectOf _ p s).completesWith (completesWith_complete _ p.cmd .ok))
  all_goals exact sequencerStep_flags p s

/-- The engine's turn keeps the flags, or completes the command in flight with its code. -/
theorem engineStep_flags {s t : State} (h : engineStep s = .next t) :
    KeepsFlags s t ∨
    ∃ p, s.pending = some p ∧ s.rstN = true ∧ CompletesWith (completionCode p) s t := by
  have htick := keepsFlags_tick s
  rw [engineStep_eq] at h
  cases h
  by_cases hr : s.rstN = true
  · rw [if_pos hr]
    cases hp : s.pending with
    | none => exact .inl ⟨rfl, rfl, rfl, rfl⟩
    | some p =>
      cases hd : decode p.cmd with
      | error _ =>
        have hc : completionCode p = .illegalCommand := by simp [completionCode, hd]
        simp only [hd]
        exact .inr ⟨p, rfl, hr, hc ▸ htick.completesWith (completesWith_fail _ _ _)⟩
      | ok i =>
        have hc : completionCode p = p.verdict := by simp [completionCode, hd]
        by_cases hv : p.verdict = .ok
        · simp only [hd, if_pos hv]
          exact (acceptedStep_flags i p s.tick).imp htick.trans
            fun h => ⟨p, rfl, hr, by rw [hc, hv]; exact htick.completesWith h⟩
        · simp only [hd, if_neg hv]
          exact .inr ⟨p, rfl, hr, hc ▸ htick.completesWith (completesWith_fail _ _ _)⟩
  · rw [if_neg hr]
    exact .inl ⟨rfl, rfl, rfl, rfl⟩

/-- In a state that meets the invariant the code of completion is the verdict (R112). -/
theorem completionCode_eq_verdict {s : State} {p : Pending} (hi : Inv s) (hp : s.pending = some p) :
    completionCode p = p.verdict := by
  cases hd : decode p.cmd with
  | ok i => simp [completionCode, hd]
  | error _ => simp [completionCode, hd, hi.verdict p hp, check]

/-! ### What a step does to the flags -/

/-- What can have moved BUSY, ERR, OVR and ERRCODE in the step from `s` to `t`, each case with the event that
brings it about. -/
inductive FlagMove (s t : State) : Prop where
  /-- nothing moves them -/
  | kept (h : KeepsFlags s t)
  /-- the engine's turn completes the command in flight -/
  | completed (p : Pending) (hp : s.pending = some p) (hr : s.rstN = true)
      (he : s.events = [] ∨ ∃ es, s.events = .engine :: es) (h : CompletesWith (completionCode p) s t)
  /-- the host writes CMD -/
  | cmdWritten (v : Word) (es : List Event) (he : s.events = .write 0x000 32 v :: es) (hr : s.rstN = true)
      (hp : t.pending.isSome = true) (herr : t.status.err = s.status.err)
      (hovr : t.status.ovr = (s.status.ovr || s.busy)) (hcode : t.status.errcode = s.status.errcode)
  /-- the host writes STATUS -/
  | statusWritten (v : Word) (es : List Event) (he : s.events = .write 0x004 32 v :: es)
      (hp : t.pending = s.pending) (h : t.status = statusWrite v s.status)
  /-- rst_n falls -/
  | reset (es : List Event) (he : s.events = .rst false :: es) (hp : t.pending = none)
      (h : t.status = Status.reset)

/-- A CMD write leaves BUSY 1, sets OVR when BUSY was 1, and leaves ERR and ERRCODE (R36, R110, R113). -/
theorem writeCmd_flags (v : Word) (s : State) :
    (writeCmd v s).pending.isSome = true ∧ (writeCmd v s).status.err = s.status.err ∧
      (writeCmd v s).status.ovr = (s.status.ovr || s.busy) ∧
      (writeCmd v s).status.errcode = s.status.errcode := by
  unfold writeCmd
  split
  next hb => exact ⟨hb, rfl, by rw [hb, Bool.or_true], rfl⟩
  next hb =>
    have hb' : s.busy = false := by simpa using hb
    rw [hb', issue_status]
    split <;> simp

/-- Every step moves the flags in one of the ways listed. -/
theorem step_flagMove {s t : State} (h : step s = .next t) : FlagMove s t := by
  rcases step_cases h with ⟨he, hs⟩ | ⟨es, he, hs⟩ | ⟨off, es, _, _, _, rfl⟩ |
    ⟨off, v, es, he, _, _, rfl⟩ | ⟨level, es, he, rfl⟩
  · rcases engineStep_flags hs with hk | ⟨p, hp, hr, hc⟩
    · exact .kept hk
    · exact .completed p hp hr (.inl he) hc
  · have hk := keepsFlags_events s es
    rcases engineStep_flags hs with hk' | ⟨p, hp, hr, hc⟩
    · exact .kept (hk.trans hk')
    · exact .completed p hp hr (.inr ⟨es, he⟩) (hk.completesWith hc)
  · exact .kept ⟨rfl, rfl, rfl, rfl⟩
  · rcases hostWrite_cases off v { s with events := es } with ⟨rfl, hr, hw⟩ | ⟨rfl, _, hw⟩ | ⟨r, hw⟩ <;>
      rw [hw]
    · obtain ⟨hp, herr, hovr, hcode⟩ := writeCmd_flags v { s with events := es }
      exact .cmdWritten v es he hr hp herr hovr hcode
    · exact .statusWritten v es he rfl rfl
    · exact .kept ⟨rfl, rfl, rfl, rfl⟩
  · cases level with
    | true => exact .kept ⟨rfl, rfl, rfl, rfl⟩
    | false => exact .reset es he rfl rfl

/-- The step of a CMD write, while rst_n = 1. -/
theorem step_cmdWrite_flags {s t : State} (h : step s = .next t) (hr : s.rstN = true) {v : Word}
    {es : List Event} (he : s.events = .write 0x000 32 v :: es) :
    t.busy = true ∧ t.status.ovr = (s.status.ovr || s.busy) := by
  rw [step_write he (by decide) (by decide), hostWrite_cmd (by exact hr)] at h
  cases h
  obtain ⟨hp, _, hovr, _⟩ := writeCmd_flags v { s with events := es }
  exact ⟨hp, hovr⟩

/-! ### The statements -/

/-- Settles O34: the register at each such offset ignores the write, and the step only performs it. -/
theorem otherWritesHaveNoOtherEffect : Obligations.OtherWritesHaveNoOtherEffect := by
  intro s v es hr
  refine ⟨fun off h4 ho => ⟨hostWrite_readOnly s v ho, fun he => ?_⟩, hostWrite_status hr v, fun he => ?_⟩
  · rw [step_write he h4 (by omega), hostWrite_readOnly _ v ho]
    rfl
  · rw [step_write he (by decide) (by decide), hostWrite_status (by exact hr)]
    rfl

/-- Settles O40, by the ways a step can move the flags. -/
theorem busyChangesOnlyAtIssueCompletionAndReset :
    Obligations.BusyChangesOnlyAtIssueCompletionAndReset := by
  intro s t h
  refine ⟨fun hr ⟨_, _, he⟩ => (step_cmdWrite_flags h hr he).1, ?_⟩
  cases step_flagMove h with
  | kept hk => simp +contextual [hk.pending]
  | completed p hp hr he hc => simp [hp, hc.pending, hr, he]
  | cmdWritten v es he hr hp => simp [hp, he, hr]
  | statusWritten v es he hp => simp +contextual [hp]
  | reset es he hp => simp [hp, he]

/-- Settles O41, by the ways a step can move the flags: ERR becomes ERR or "the code is not 0" at a
completion. -/
theorem errIsSticky : Obligations.ErrIsSticky := by
  intro s t h
  cases step_flagMove h with
  | kept hk => simp +contextual [hk.pending, hk.err]
  | completed p hp hr he hc => simp +contextual [hp, hc.pending, hc.err, hc.errcode]
  | cmdWritten v es he hr hp herr => simp +contextual [herr, hp]
  | statusWritten v es he hp hst => simp +contextual [hst, hp, he]
  | reset es he hp hst => simp [hst, hp, he, Status.reset]

/-- Settles O42, by the ways a step can move the flags. -/
theorem ovrIsSticky : Obligations.OvrIsSticky := by
  intro s t h
  refine ⟨fun hr hb ⟨_, _, he⟩ => by rw [(step_cmdWrite_flags h hr he).2, hb, Bool.or_true], ?_⟩
  cases step_flagMove h with
  | kept hk => simp +contextual [hk.ovr]
  | completed p hp hr he hc => simp +contextual [hc.ovr]
  | cmdWritten v es he hr hp herr hovr => simp +contextual [hovr, he]
  | statusWritten v es he hp hst => simp +contextual [hst, he]
  | reset es he hp hst => simp [hst, he, Status.reset]

/-- Settles O43, by the ways a step can move the flags; under the invariant the code of a completion is the
verdict. -/
theorem errcodeChangesOnlyAtCompletion : Obligations.ErrcodeChangesOnlyAtCompletion := by
  intro s t hi h
  cases step_flagMove h with
  | kept hk => simp +contextual [hk.errcode, hk.pending]
  | completed p hp hr he hc =>
    simp [hp, hc.pending, hc.errcode, completionCode_eq_verdict hi hp]
  | cmdWritten v es he hr hp herr hovr hcode => simp [hcode, hp]
  | statusWritten v es he hp hst => simp +contextual [hst, hp]
  | reset es he => simp [he]

end Sys2Proof.Machine
end

section
/-! PROOFS. The byte order of blocks and keys: what LOAD_STATE's grid holds of DIN, and what the first words of
a key's expansion hold of KEY (R68, R69). -/

namespace Sys2Proof.Machine

theorem wordAt_eq_getElem {n : Nat} (v : Vector Word n) (i : Fin n) : wordAt v i.val = v[i] := by
  simp [wordAt]

/-! ### Blocks -/

/-- Byte `r + 4c` of the block is byte r of DINc (R25). -/
theorem dinByte_column (din : Vector Word 4) (r c : Fin 4) :
    dinByte din (r.val + 4 * c.val) = byteOf r.val din[c] := by
  have hmod : (r.val + 4 * c.val) % 4 = r.val := by omega
  have hdiv : (r.val + 4 * c.val) / 4 = c.val := by omega
  rw [dinByte, hmod, hdiv, wordAt_eq_getElem]

/-- Column c of the loaded grid is DINc's bytes (R210, R222). -/
theorem loadBlock_col (din : Vector Word 4) (c : Fin 4) :
    (loadBlock din).col c = Column.ofWord din[c] :=
  Column.ext_get fun r => by
    rw [loadBlock, Grid.ofFn, Grid.col_ofCols, Column.get_ofFn, dinByte_column, Column.get_ofWord]

@[simp] theorem loadBlock_stateWord (din : Vector Word 4) (c : Fin 4) :
    (loadBlock din).stateWord c = din[c] := by
  rw [Grid.stateWord, loadBlock_col, Column.toWord_ofWord]

theorem Grid.getElem_words (g : Grid) (c : Fin 4) : g.words[c] = (g.col c).toWord := by
  fin_cases c <;> rfl

@[simp] theorem loadBlock_words (g : Grid) : loadBlock g.words = g :=
  Grid.ext_col fun c => by rw [loadBlock_col, Grid.getElem_words, Column.ofWord_toWord]

/-! ### Keys -/

/-- The second loop of the expansion appends words and keeps those it finds (R183). -/
theorem expandLoop_getD_of_lt (nk n : Nat) {w : List Word} {i : Nat} (hi : i < w.length) :
    (expandLoop nk n w).getD i 0 = w.getD i 0 := by
  induction n generalizing w with
  | zero => rfl
  | succ n ih =>
    rw [expandLoop, ih (by rw [List.length_append]; omega), List.getD_append _ _ _ _ hi]

/-- Each of the first Nk words of the expansion is packed from its four key bytes (R183). -/
theorem expand_getD_of_lt (k : List Byte) (nr : Nat) {nk i : Nat} (hi : i < nk) :
    (expand k nk nr).getD i 0 =
      packWord (k.getD (4 * i) 0) (k.getD (4 * i + 1) 0) (k.getD (4 * i + 2) 0)
        (k.getD (4 * i + 3) 0) := by
  rw [expand, expandLoop_getD_of_lt _ _ (by simpa using hi)]
  simp [hi]

theorem keyBytes_getD (key : Vector Word 8) {nk j : Nat} (hj : j < 4 * nk) :
    (keyBytes key nk).getD j 0 = keyByte key j := by
  simp [keyBytes, hj]

/-- Byte `4k + j` of the key is byte j of KEYk (R22). -/
theorem keyByte_word (key : Vector Word 8) (k : Fin 8) (j : Nat) (hj : j < 4) :
    keyByte key (4 * k.val + j) = byteOf j key[k] := by
  have hmod : (4 * k.val + j) % 4 = j := by omega
  have hdiv : (4 * k.val + j) / 4 = k.val := by omega
  rw [keyByte, hmod, hdiv, wordAt_eq_getElem]

theorem keyBytes_getD_word (key : Vector Word 8) {nk j : Nat} {k : Fin 8} (hk : k.val < nk)
    (hj : j < 4) : (keyBytes key nk).getD (4 * k.val + j) 0 = byteOf j key[k] := by
  rw [keyBytes_getD key (by omega), keyByte_word key k j hj]

/-- The first Nk words of the expansion of the KEY registers' bytes are KEY0 to KEY(Nk-1) (R69). -/
theorem expand_keyBytes_getD (key : Vector Word 8) (nr : Nat) {nk : Nat} {k : Fin 8}
    (hk : k.val < nk) : (expand (keyBytes key nk) nk nr).getD k.val 0 = key[k] := by
  have byte (j : Nat) (hj : j < 4) := keyBytes_getD_word key hk hj
  have byte0 : (keyBytes key nk).getD (4 * k.val) 0 = byteOf 0 key[k] := byte 0 (by decide)
  rw [expand_getD_of_lt _ nr hk, byte0, byte 1 (by decide), byte 2 (by decide), byte 3 (by decide),
    packWord_byteOf]

/-! ### The statement -/

/-- Settles O59: DINc packs back from the column loaded from it, and KEYk from the four key bytes that W[k] is
made of, whatever Nk is. -/
theorem byteOrderIsTheSpecs : Obligations.ByteOrderIsTheSpecs :=
  ⟨loadBlock_stateWord, loadBlock_words, fun key _ nr _ _ hk => expand_keyBytes_getD key nr hk⟩

end Sys2Proof.Machine
end

section
/-! PROOFS. The two forms of R95: the mask of a format against the opcode and must-be-zero fields, the rows of
opcode_table.json against the commands, and the statement that decoding is the match. -/

namespace Sys2Proof

open Machine

/-! ### The mask of a format -/

/-- Two words are equal when their four fields are (R91). -/
theorem word_eq_iff_fields {v w : Word} :
    v = w ↔ opcField v = opcField w ∧ aField v = aField w ∧ bField v = bField w ∧
      rsvField v = rsvField w := by
  refine ⟨fun h => h ▸ ⟨rfl, rfl, rfl, rfl⟩, fun ⟨hopc, ha, hb, hrsv⟩ => ?_⟩
  have packed (u : Word) : packWord (rsvField u) (bField u) (aField u) (opcField u) = u :=
    packWord_byteOf u
  rw [← packed v, ← packed w, hopc, ha, hb, hrsv]

/-- An opcode as a word: OPC, and zero in every other field (R91). -/
theorem setWidth_eq_packWord (opc : Byte) : opc.setWidth 32 = packWord 0 0 0 opc := by
  ext k hk
  rw [← BitVec.getLsbD_eq_getElem, ← BitVec.getLsbD_eq_getElem, packWord_getLsbD]
  interval_cases k <;> simp

/-- A word is an opcode exactly when OPC is the opcode and every other field is zero (R91). -/
theorem eq_setWidth_iff_fields {w : Word} {opc : Byte} :
    w = opc.setWidth 32 ↔ opcField w = opc ∧ aField w = 0 ∧ bField w = 0 ∧ rsvField w = 0 := by
  rw [setWidth_eq_packWord, word_eq_iff_fields,
    show opcField (packWord 0 0 0 opc) = opc from byteOf_packWord_3 0 0 0 opc,
    show aField (packWord 0 0 0 opc) = 0 from byteOf_packWord_2 0 0 0 opc,
    show bField (packWord 0 0 0 opc) = 0 from byteOf_packWord_1 0 0 0 opc,
    show rsvField (packWord 0 0 0 opc) = 0 from byteOf_packWord_0 0 0 0 opc]

/-- A word masked to a format's bits is an opcode exactly when the word has that opcode and its RSV and
unused operand fields are zero (R92, R95). -/
theorem and_maskOf_eq_iff {w : Word} {f : Format} {opc : Byte} :
    w &&& maskOf f = opc.setWidth 32 ↔
      opcField w = opc ∧ rsvField w = 0 ∧ unusedZero f w = true := by
  have kept (b : Byte) : b &&& 255#8 = b := BitVec.and_allOnes
  rw [eq_setWidth_iff_fields]
  simp only [opcField, aField, bField, rsvField, unusedZero, BitVec.extractLsb'_and]
  cases f <;> simp [maskOf, kept, and_assoc, and_comm]

/-! ### Decoding by opcode, format and operands -/

theorem decode_ok_iff_mask {w : Word} {i : Instr} :
    decode w = .ok i ↔
      i.wellFormed = true ∧ w &&& maskOf (formatOf i) = (opcodeOf i).setWidth 32 ∧
        operandA i = aField w ∧ operandB i = bField w := by
  rw [and_maskOf_eq_iff]
  constructor
  · intro h
    obtain ⟨hrow, hrsv, hunused⟩ := decode_ok_iff.1 h
    obtain ⟨hopc, _, hwf, ha, hb⟩ := opcodeRow_some hrow
    refine ⟨hwf, ⟨hopc, hrsv, hunused⟩, ?_⟩
    cases hf : formatOf i <;> simp_all [unusedZero]
  · intro ⟨hwf, ⟨hopc, hrsv, hunused⟩, ha, hb⟩
    refine decode_ok_iff.2 ⟨?_, hrsv, hunused⟩
    rw [hopc, ← ha, ← hb, opcodeRow_opcodeOf i hwf]

/-! ### The rows of the table -/

/-- The row of opcode_table.json for a command: its opcode as the match, its format's bits as the mask. -/
def tableRow (i : Instr) : Word × Word := ((opcodeOf i).setWidth 32, maskOf (formatOf i))

theorem tableRow_mem_opcodeTable (i : Instr) : tableRow i ∈ opcodeTable := by
  cases i <;> simp [tableRow, opcodeTable, opcodeOf, formatOf, maskOf]

/-- One command per row of the table, in the table's order. -/
def tableInstrs : List Instr :=
  [.nop, .gfAdd 0 0, .gfXtime 0, .gfMul 0 0, .sbox 0, .invSbox 0, .keyExpand, .rotWord, .subWord, .rcon 0,
   .keyClear, .loadState, .subBytes, .invSubBytes, .shiftRows, .invShiftRows, .mixColumns,
   .invMixColumns, .addRoundKey 0, .encrypt, .decrypt]

theorem opcodeTable_eq_map_tableRow : opcodeTable = tableInstrs.map tableRow := by decide

/-- The row of a command matches exactly the words with its opcode whose RSV and unused operand fields are
zero. -/
theorem and_tableRow_eq_iff {w : Word} {i : Instr} :
    w &&& (tableRow i).2 = (tableRow i).1 ↔
      opcField w = opcodeOf i ∧ rsvField w = 0 ∧ unusedZero (formatOf i) w = true :=
  and_maskOf_eq_iff

/-- Every opcode of a command has a row in the opcode map, of that command's format, at any operands. -/
theorem exists_opcodeRow_opcodeOf (i : Instr) (a b : Byte) :
    ∃ j, opcodeRow (opcodeOf i) a b = some (formatOf i, j) := by
  cases i <;> exact ⟨_, rfl⟩

/-- A word decodes exactly when a command's row matches it. -/
theorem exists_decode_ok_iff_tableRow {w : Word} :
    (∃ i, decode w = .ok i) ↔ ∃ i, w &&& (tableRow i).2 = (tableRow i).1 := by
  simp only [and_tableRow_eq_iff]
  constructor
  · rintro ⟨i, h⟩
    exact ⟨i, opcField_of_decode h, (decode_ok_iff.1 h).2⟩
  · rintro ⟨i, hopc, hzero⟩
    obtain ⟨j, hj⟩ := exists_opcodeRow_opcodeOf i (aField w) (bField w)
    have hf : formatOf i = formatOf j := (opcodeRow_some hj).2.1
    exact ⟨j, decode_ok_iff.2 (by rw [hopc, ← hf]; exact ⟨hj, hzero⟩)⟩

theorem exists_mem_opcodeTable_iff {p : Word × Word → Prop} :
    (∃ row ∈ opcodeTable, p row) ↔ ∃ i, p (tableRow i) := by
  constructor
  · rintro ⟨row, hmem, hp⟩
    rw [opcodeTable_eq_map_tableRow] at hmem
    obtain ⟨i, _, rfl⟩ := List.mem_map.1 hmem
    exact ⟨i, hp⟩
  · rintro ⟨i, hp⟩
    exact ⟨_, tableRow_mem_opcodeTable i, hp⟩

theorem tableInstrs_opcodes_nodup : (tableInstrs.map opcodeOf).Nodup := by decide

/-- At most one row matches a word: a matching row has the word's opcode, and the table's opcodes differ. -/
theorem matching_rows_length_le_one (w : Word) :
    (opcodeTable.filter fun row => rowMatches row w).length ≤ 1 := by
  rw [← List.countP_eq_length_filter, opcodeTable_eq_map_tableRow, List.countP_map]
  calc tableInstrs.countP _
    _ ≤ tableInstrs.countP ((· == opcField w) ∘ opcodeOf) := by
        refine List.countP_mono_left fun i _ hm => ?_
        have hm : w &&& (tableRow i).2 = (tableRow i).1 := by simpa [rowMatches] using hm
        simp [(and_tableRow_eq_iff.1 hm).1]
    _ = (tableInstrs.map opcodeOf).count (opcField w) := List.countP_map.symm
    _ ≤ 1 := List.nodup_iff_count_le_one.1 tableInstrs_opcodes_nodup _

/-! ### The statement -/

/-- Settles O4: the mask of a format fixes exactly the opcode and the must-be-zero fields, and the rows of the
table are those of the commands, with distinct opcodes. -/
theorem decodeIsTheMatchingTableRow : Obligations.DecodeIsTheMatchingTableRow :=
  ⟨fun _ _ => decode_ok_iff_mask,
    fun w => exists_decode_ok_iff_tableRow.trans
      (exists_mem_opcodeTable_iff (p := fun row => w &&& row.2 = row.1)).symm,
    matching_rows_length_le_one⟩

end Sys2Proof
end

section
/-! PROOFS. The command protocol: what a host write to CMD leaves, in an idle block and in a busy one, and that a
command that fails its check completes with that error at the engine's next turn. -/

namespace Sys2Proof.Machine

/-! ### The write to CMD -/

/-- The CMD write of an idle block issues the word (R110). -/
theorem writeCmd_idle {s : State} (hp : s.pending = none) (v : Word) : writeCmd v s = issue v s := by
  simp [writeCmd, State.busy, hp]

/-- The CMD write of a busy block is dropped (R113). -/
theorem writeCmd_busy {s : State} (hb : s.busy = true) (v : Word) :
    writeCmd v s = { s with status := { s.status with ovr := true } } :=
  if_pos hb

/-- The step that performs a CMD write, while rst_n = 1. -/
theorem step_cmdWrite {s : State} (hr : s.rstN = true) {v : Word} {es : List Event}
    (he : s.events = .write 0x000 32 v :: es) :
    step s = .next (writeCmd v { s with events := es }).tick := by
  rw [step_write he (by decide) (by decide), hostWrite_cmd (by exact hr)]

/-! ### The start of the sequencer -/

/-- ENCRYPT and DECRYPT by the opcodes of the map (R94). -/
theorem isCipherWord_iff_opcode {v : Word} :
    isCipherWord v = true ↔ v.extractLsb' 0 8 = 0x50#8 ∨ v.extractLsb' 0 8 = 0x51#8 := by
  simp [isCipherWord, opcField, opcodeOf]

/-- The status an issue leaves, with the opcodes written out (R110). -/
theorem issue_status_of_opcode (v : Word) (s : State) :
    (issue v s).status =
      if check v s.status.keyValid s.status.nr s.regs = .ok ∧
          (v.extractLsb' 0 8 = 0x50#8 ∨ v.extractLsb' 0 8 = 0x51#8) then
        { s.status with
          fsm := .initial
          round := 0
          dir := if v.extractLsb' 0 8 = 0x50#8 then .encrypt else .decrypt }
      else s.status := by
  simp only [issue_status, isCipherWord_iff_opcode]
  rfl

/-! ### The completion of a command that fails -/

/-- The code of completion of a word checked at its issue is the outcome of the check (R112, R272). -/
theorem completionCode_check (v : Word) (kv : Bool) (nr : BitVec 4) (h snap : HostRegs) :
    completionCode ⟨v, check v kv nr h, snap⟩ = check v kv nr h := by
  cases hd : decode v with
  | ok i => simp [completionCode, hd]
  | error _ => simp [completionCode, hd, check]

/-- The engine's turn fails a command in flight whose code of completion is an error (R114, R270). -/
theorem engineStep_failed {s : State} {p : Pending} (hr : s.rstN = true) (hp : s.pending = some p)
    (hc : completionCode p ≠ .ok) :
    engineStep s = .next (s.tick.fail p.cmd (completionCode p)) := by
  cases hd : decode p.cmd with
  | error _ => simp [engineStep_eq, hr, hp, hd, completionCode]
  | ok i =>
    have hv : p.verdict ≠ .ok := by simpa [completionCode, hd] using hc
    simp [engineStep_eq, hr, hp, hd, hv, completionCode]

/-- A command in flight whose code of completion is an error completes with it at the engine's turn (R115). -/
theorem engineStep_completesWith_error {s : State} {p : Pending} (hr : s.rstN = true)
    (hp : s.pending = some p) (hc : completionCode p ≠ .ok) :
    ∃ u, engineStep s = .next u ∧ CompletesWith (completionCode p) s u :=
  ⟨_, engineStep_failed hr hp hc, (keepsFlags_tick s).completesWith (completesWith_fail _ _ _)⟩

/-! ### The statements -/

/-- Settles O5: the step is the issue of the word, and a failing word's code of completion is the verdict it was
issued with. -/
theorem cmdWriteIssuesWhenIdle : Obligations.CmdWriteIssuesWhenIdle := by
  intro s v es hr hp he
  refine ⟨(issue v { s with events := es }).tick, ?_, rfl, rfl, issue_status_of_opcode v _, rfl,
    fun hfail => ?_⟩
  · rw [step_cmdWrite hr he, writeCmd_idle (by exact hp)]
  · have hcode := completionCode_check v s.status.keyValid s.status.nr s.regs s.regs
    obtain ⟨u, hu, hdone⟩ := engineStep_completesWith_error
      (s := (issue v { s with events := es }).tick) hr rfl (hcode.trans_ne hfail)
    refine ⟨u, hu, by simp [State.busy, hdone.pending], ?_, hdone.errcode.trans hcode⟩
    simp [hdone.err, hcode, hfail]

/-- Settles O6: the step is the dropped CMD write. -/
theorem cmdWriteWhileBusyOnlySetsOvr : Obligations.CmdWriteWhileBusyOnlySetsOvr := by
  intro s v es hr hb he
  rw [step_cmdWrite hr he, writeCmd_busy (by exact hb)]
  rfl

end Sys2Proof.Machine
end

section
/-! PROOFS. GF(2^8) arithmetic (41_gf_arith.md): a byte read as the residue of its polynomial modulo m(x) (R14,
R146). The reading is injective, takes `add` to the sum, `xtime` to the product with x and `multiply` to the product,
so the laws of the field functions are laws of the commutative ring of residues. -/

namespace Sys2Proof.Machine

open Polynomial

/-! ### The polynomial of a byte -/

/-- The polynomial over the field of two elements whose coefficients are the low `n` bits of a byte. -/
noncomputable def lowPoly (n : Nat) (v : Byte) : (ZMod 2)[X] :=
  ∑ i ∈ Finset.range n, if v.getLsbD i then X ^ i else 0

/-- m(x), the field polynomial (R146). -/
noncomputable def fieldPoly : (ZMod 2)[X] := X ^ 8 + X ^ 4 + X ^ 3 + X + 1

theorem lowPoly_xor (n : Nat) (v w : Byte) : lowPoly n (v ^^^ w) = lowPoly n v + lowPoly n w := by
  simp only [lowPoly, ← Finset.sum_add_distrib]
  refine Finset.sum_congr rfl fun i _ => ?_
  cases hv : v.getLsbD i <;> cases hw : w.getLsbD i <;> simp [hv, hw, CharTwo.add_self_eq_zero]

/-- The low bits of a byte are those of the byte shifted right, one place up, and its last bit. -/
theorem lowPoly_succ (n : Nat) (v : Byte) :
    lowPoly (n + 1) v = X * lowPoly n (v >>> 1) + if v.getLsbD 0 then 1 else 0 := by
  simp [lowPoly, Finset.sum_range_succ', Finset.mul_sum, pow_succ', add_comm 1]

/-- A shift left multiplies by x, but for the bit that leaves the byte. -/
theorem X_mul_lowPoly (v : Byte) :
    X * lowPoly 8 v = lowPoly 8 (v <<< 1) + if v.getLsbD 7 then X ^ 8 else 0 := by
  have hlow : lowPoly 7 (v <<< 1 >>> 1) = lowPoly 7 v := by
    refine Finset.sum_congr rfl fun i hi => ?_
    have hi : i < 7 := Finset.mem_range.1 hi
    have hbit : (v <<< 1 >>> 1).getLsbD i = v.getLsbD i := by simp; omega
    rw [hbit]
  have htop : lowPoly 8 v = lowPoly 7 v + if v.getLsbD 7 then X ^ 7 else 0 := Finset.sum_range_succ ..
  rw [lowPoly_succ 7 (v <<< 1), hlow, htop]
  simp [mul_add, ← pow_succ']

theorem coeff_lowPoly (n i : Nat) (v : Byte) :
    (lowPoly n v).coeff i = if i < n ∧ v.getLsbD i then 1 else 0 := by
  have hterm (j : Nat) : (if v.getLsbD j then (X : (ZMod 2)[X]) ^ j else 0).coeff i =
      if i = j then if v.getLsbD j then 1 else 0 else 0 := by
    split <;> simp [coeff_X_pow]
  simp [lowPoly, hterm, ite_and]

theorem lowPoly_eight_injective : Function.Injective (lowPoly 8) := by
  intro v w h
  refine BitVec.eq_of_getLsbD_eq fun i hi => ?_
  have hcoeff := congrArg (·.coeff i) h
  simp only [coeff_lowPoly, hi, true_and] at hcoeff
  cases hv : v.getLsbD i <;> cases hw : w.getLsbD i <;> simp_all

theorem degree_lowPoly_lt (n : Nat) (v : Byte) : (lowPoly n v).degree < n :=
  (degree_lt_iff_coeff_zero _ _).2 fun i hi => by simp [coeff_lowPoly, hi]

theorem degree_fieldPoly : fieldPoly.degree = 8 := by
  unfold fieldPoly
  compute_degree!

/-! ### The residue of a byte -/

/-- The residue modulo m(x) of the polynomial that a byte denotes (R14). -/
noncomputable def residue (v : Byte) : AdjoinRoot fieldPoly := AdjoinRoot.mk fieldPoly (lowPoly 8 v)

theorem residue_injective : Function.Injective residue := by
  intro v w h
  have hdvd : fieldPoly ∣ lowPoly 8 v - lowPoly 8 w := AdjoinRoot.mk_eq_mk.1 h
  have hdeg : (lowPoly 8 v - lowPoly 8 w).degree < fieldPoly.degree := by
    rw [degree_fieldPoly]
    exact (degree_sub_le _ _).trans_lt (max_lt (degree_lowPoly_lt 8 v) (degree_lowPoly_lt 8 w))
  exact lowPoly_eight_injective (sub_eq_zero.1 (eq_zero_of_dvd_of_degree_lt hdvd hdeg))

@[simp] theorem residue_gfAdd (a b : Byte) : residue (gfAdd a b) = residue a + residue b := by
  simp [residue, gfAdd, lowPoly_xor]

@[simp] theorem residue_zero : residue 0#8 = 0 := by
  simp [residue, lowPoly]

@[simp] theorem residue_one : residue 1#8 = 1 := by
  simp [residue, lowPoly]

@[simp] theorem residue_two : residue 2#8 = AdjoinRoot.root fieldPoly := by
  simp [residue, lowPoly, Finset.sum_range_succ]

/-- x^8 and x^4+x^3+x+1 differ by m(x) (R148). -/
theorem root_pow_eight : AdjoinRoot.root fieldPoly ^ 8 = residue 0x1b := by
  have htail : lowPoly 8 0x1b = 1 + X + X ^ 3 + X ^ 4 := by simp [lowPoly, Finset.sum_range_succ]
  have hdiff : X ^ 8 - lowPoly 8 0x1b = fieldPoly := by
    rw [htail, fieldPoly, CharTwo.sub_eq_add]
    ring
  rw [residue, ← AdjoinRoot.mk_X, ← map_pow, AdjoinRoot.mk_eq_mk, hdiff]

@[simp] theorem residue_xtime (b : Byte) : residue (xtime b) = AdjoinRoot.root fieldPoly * residue b := by
  have hshift := congrArg (AdjoinRoot.mk fieldPoly) (X_mul_lowPoly b)
  rw [map_mul, AdjoinRoot.mk_X] at hshift
  rw [residue, residue, hshift, xtime]
  split
  · simp [lowPoly_xor, root_pow_eight, residue]
  · simp

theorem residue_xtime_iterate (n : Nat) (b : Byte) :
    residue (xtime^[n] b) = AdjoinRoot.root fieldPoly ^ n * residue b := by
  induction n with
  | zero => simp
  | succ n ih => rw [Function.iterate_succ_apply', residue_xtime, ih, pow_succ', mul_assoc]

/-- The loop of R145 adds to its accumulator the product of b and the bits of a it has seen. -/
theorem residue_multiplyLoop (n : Nat) (acc a b : Byte) :
    residue (multiplyLoop n acc a b) =
      residue acc + AdjoinRoot.mk fieldPoly (lowPoly n a) * residue b := by
  induction n generalizing acc a b with
  | zero => simp [multiplyLoop, lowPoly]
  | succ n ih =>
    rw [multiplyLoop, ih, lowPoly_succ]
    split <;> simp <;> ring

@[simp] theorem residue_multiply (a b : Byte) : residue (multiply a b) = residue a * residue b := by
  calc residue (multiply a b)
    _ = residue 0 + residue a * residue b := residue_multiplyLoop 8 0 a b
    _ = residue a * residue b := by simp

/-! ### The statements -/

/-- Settles O55: a byte and the product have one residue when m(x) divides their difference. -/
theorem multiplyIsTheProductModuloTheFieldPolynomial :
    Obligations.MultiplyIsTheProductModuloTheFieldPolynomial := by
  intro a b
  refine AdjoinRoot.mk_eq_mk.1 ?_
  rw [map_mul]
  exact residue_multiply a b

/-- Settles O53: each law holds of the residues, which tell bytes apart. -/
theorem multiplyObeysTheFieldLaws : Obligations.MultiplyObeysTheFieldLaws := by
  refine ⟨fun a b => ?comm, fun a b c => ?assoc, fun a b c => ?distrib,
    fun a => ⟨?mul_zero, ?zero_mul, ?mul_one⟩, fun b => ?xtime⟩
  all_goals apply residue_injective
  case comm => rw [residue_multiply, residue_multiply, mul_comm]
  case assoc => simp only [residue_multiply, mul_assoc]
  case distrib => simp only [residue_multiply, residue_gfAdd, mul_add]
  case mul_zero => simp
  case zero_mul => simp
  case mul_one => simp
  case xtime => simp [mul_comm (AdjoinRoot.root fieldPoly)]

/-- Settles O54: eight doublings multiply the residue by x^8. -/
theorem eightDoublingsMultiplyBy1b : Obligations.EightDoublingsMultiplyBy1b := by
  refine ⟨fun b => residue_injective ?_, by decide⟩
  rw [residue_xtime_iterate, root_pow_eight, residue_multiply, mul_comm]

end Sys2Proof.Machine
end

section
/-! PROOFS. The forward substitution table (42_sbox.md). The affine map of R162 is invertible, so every entry of the
table is the affine map of one byte. That this byte is the field inverse of the entry's index is checked of each entry
of the table; that there is no other inverse follows from the commutative ring of residues. -/

namespace Sys2Proof.Machine

/-- The affine map of R162. -/
def sboxAffine (c : Byte) : Byte :=
  c ^^^ c.rotateLeft 1 ^^^ c.rotateLeft 2 ^^^ c.rotateLeft 3 ^^^ c.rotateLeft 4 ^^^ 0x63#8

/-- The inverse of the affine map: of the fifteen rotations in `sboxAffine (sboxAffineInv v)` all but the one by 8 cancel
in pairs. -/
def sboxAffineInv (v : Byte) : Byte :=
  v.rotateLeft 1 ^^^ v.rotateLeft 3 ^^^ v.rotateLeft 6 ^^^ 0x05#8

theorem sboxAffine_sboxAffineInv : ∀ v : Byte, sboxAffine (sboxAffineInv v) = v := by decide

theorem subByte_zero : subByte 0 = sboxAffine 0 := by decide

/-- The check of the table of R160, entry by entry. -/
theorem multiply_sboxAffineInv_subByte :
    ∀ b : Byte, b ≠ 0 → multiply b (sboxAffineInv (subByte b)) = 1 := by decide

theorem residue_mul_residue_of_multiply_eq_one {b c : Byte} (h : multiply b c = 1) :
    residue b * residue c = 1 := by
  rw [← residue_multiply, h]
  exact residue_one

/-- Field inverses are unique. -/
theorem eq_of_multiply_eq_one {b c d : Byte} (hc : multiply b c = 1) (hd : multiply b d = 1) : c = d := by
  have hleft : residue c * residue b = 1 := by
    rw [mul_comm, residue_mul_residue_of_multiply_eq_one hc]
  exact residue_injective (left_inv_eq_right_inv hleft (residue_mul_residue_of_multiply_eq_one hd))

theorem ne_zero_of_multiply_eq_one {b c : Byte} (h : multiply b c = 1) : b ≠ 0 := by
  rintro rfl
  obtain ⟨-, -, -, hzero, -⟩ := multiplyObeysTheFieldLaws
  obtain ⟨-, hzero_mul, -⟩ := hzero c
  exact absurd (hzero_mul.symm.trans h) (by decide)

/-- Settles O56: the byte whose affine map is the table's entry at b is an inverse of b, so it is the only one. -/
theorem sboxIsAffineOfTheInverse : Obligations.SboxIsAffineOfTheInverse := by
  refine ⟨subByte_zero, fun b hb => ?unique_inverse, fun b c hbc => ?entry⟩
  case unique_inverse =>
    have hinv := multiply_sboxAffineInv_subByte b hb
    exact ⟨_, hinv, fun c hbc => eq_of_multiply_eq_one hbc hinv⟩
  case entry =>
    have hinv := multiply_sboxAffineInv_subByte b (ne_zero_of_multiply_eq_one hbc)
    calc subByte b
      _ = sboxAffine (sboxAffineInv (subByte b)) := (sboxAffine_sboxAffineInv _).symm
      _ = sboxAffine c := by rw [eq_of_multiply_eq_one hinv hbc]

end Sys2Proof.Machine
end

section
/-! PROOFS. The key schedule (43_key_schedule.md): the length of the expansion, and the word that each round of its loop
appends, read in the finished list. -/

namespace Sys2Proof.Machine

/-! ### The loop of the expansion -/

@[simp] theorem expandLoop_length (nk n : Nat) (w : List Word) :
    (expandLoop nk n w).length = w.length + n := by
  induction n generalizing w with
  | zero => rfl
  | succ n ih =>
    rw [expandLoop, ih, List.length_append, List.length_singleton]
    omega

/-- The first word the loop appends, made of the words it was given. -/
theorem expandLoop_succ_getD_length (nk n : Nat) (w : List Word) :
    (expandLoop nk (n + 1) w).getD w.length 0 =
      w.getD (w.length - nk) 0 ^^^ expandTemp nk w.length (w.getD (w.length - 1) 0) := by
  rw [expandLoop, expandLoop_getD_of_lt _ _ (by simp), List.getD_append_right _ _ _ _ le_rfl,
    Nat.sub_self, List.getD_cons_zero]

/-- Later rounds leave the words that a round read, so the recurrence of R183 holds of the finished list. -/
theorem expandLoop_getD_recurrence {nk n i : Nat} {w : List Word} (hnk : 0 < nk) (hw : 0 < w.length)
    (hle : w.length ≤ i) (hlt : i < w.length + n) :
    (expandLoop nk n w).getD i 0 = (expandLoop nk n w).getD (i - nk) 0 ^^^
      expandTemp nk i ((expandLoop nk n w).getD (i - 1) 0) := by
  induction n generalizing w with
  | zero => omega
  | succ n ih =>
    obtain rfl | hi := hle.eq_or_lt
    case inl =>
      rw [expandLoop_succ_getD_length, expandLoop_getD_of_lt _ _ (by omega : w.length - nk < w.length),
        expandLoop_getD_of_lt _ _ (by omega : w.length - 1 < w.length)]
    case inr =>
      rw [expandLoop]
      apply ih <;> rw [List.length_append, List.length_singleton] <;> omega

/-! ### The expansion -/

theorem expand_length (k : List Byte) {nk nr : Nat} (h : nk ≤ 4 * (nr + 1)) :
    (expand k nk nr).length = 4 * (nr + 1) := by
  rw [expand, expandLoop_length, List.length_map, List.length_range]
  omega

theorem expand_getD_recurrence (k : List Byte) {nk nr i : Nat} (hnk : 0 < nk) (hle : nk ≤ i)
    (hlt : i < 4 * (nr + 1)) :
    (expand k nk nr).getD i 0 = (expand k nk nr).getD (i - nk) 0 ^^^
      expandTemp nk i ((expand k nk nr).getD (i - 1) 0) := by
  apply expandLoop_getD_recurrence hnk <;> rw [List.length_map, List.length_range] <;> omega

/-! ### The statement -/

/-- Settles O18: `expandTemp` is the rule's case distinction on i and Nk, so the third part is the recurrence of the
loop. -/
theorem expansionFollowsTheRecurrence : Obligations.ExpansionFollowsTheRecurrence := by
  intro k nk nr hsize _
  have hnk : 0 < nk ∧ nk ≤ 4 * (nr + 1) := by omega
  exact ⟨expand_length k hnk.2, fun _ hi => expand_getD_of_lt k nr hi,
    fun _ hle hlt => expand_getD_recurrence k hnk.1 hle hlt⟩

end Sys2Proof.Machine
end

section
/-! PROOFS. The State transforms and their inverses (44_state_transforms.md). The two tables are inverse to each other
entry by entry, the two row shifts move each row by opposite amounts, and the product of the matrices of R217 and R218
is the identity over the ring of residues, so each is the inverse of the other. -/

namespace Sys2Proof.Machine

/-! ### What each transform makes of a byte or a column -/

@[simp] theorem subBytes_get (s : Grid) (r c : Fin 4) : (subBytes s).get r c = subByte (s.get r c) := by
  rw [subBytes, Grid.get_ofFn]

@[simp] theorem invSubBytes_get (s : Grid) (r c : Fin 4) :
    (invSubBytes s).get r c = invSubByte (s.get r c) := by
  rw [invSubBytes, Grid.get_ofFn]

@[simp] theorem shiftRows_get (s : Grid) (r c : Fin 4) : (shiftRows s).get r c = s.get r (c + r) := by
  rw [shiftRows, Grid.get_ofFn]

@[simp] theorem invShiftRows_get (s : Grid) (r c : Fin 4) : (invShiftRows s).get r c = s.get r (c - r) := by
  rw [invShiftRows, Grid.get_ofFn]

@[simp] theorem mixColumns_col (s : Grid) (c : Fin 4) : (mixColumns s).col c = mixColumn (s.col c) := by
  rw [mixColumns, Grid.col_ofCols]

@[simp] theorem invMixColumns_col (s : Grid) (c : Fin 4) :
    (invMixColumns s).col c = invMixColumn (s.col c) := by
  rw [invMixColumns, Grid.col_ofCols]

@[simp] theorem addRoundKey_col (w : Vector Word 60) (s : Grid) (off : Nat) (c : Fin 4) :
    (addRoundKey w s off).col c = Column.ofWord (s.stateWord c ^^^ wordAt w (off + c.val)) := by
  rw [addRoundKey, Grid.col_ofCols]

@[simp] theorem addRoundKey_stateWord (w : Vector Word 60) (s : Grid) (off : Nat) (c : Fin 4) :
    (addRoundKey w s off).stateWord c = s.stateWord c ^^^ wordAt w (off + c.val) := by
  rw [Grid.stateWord, addRoundKey_col, Column.toWord_ofWord]

/-! ### The substitution tables -/

/-- The tables of R160 and R161, compared entry by entry. -/
@[simp] theorem invSubByte_subByte : ∀ b : Byte, invSubByte (subByte b) = b := by decide

@[simp] theorem subByte_invSubByte : ∀ b : Byte, subByte (invSubByte b) = b := by decide

/-! ### The column matrices -/

/-- The residues of a column's bytes. -/
noncomputable def Column.residues (v : Column) (r : Fin 4) : AdjoinRoot fieldPoly := residue (v.get r)

theorem Column.residues_injective : Function.Injective Column.residues := fun _ _ h =>
  Column.ext_get fun r => residue_injective (congrFun h r)

/-- The matrix with the given rows, over the ring of residues. -/
noncomputable def residueMatrix (row : Fin 4 → Column) : Matrix (Fin 4) (Fin 4) (AdjoinRoot fieldPoly) :=
  Matrix.of fun r => (row r).residues

/-- The add-fold of R217 is the dot product. -/
theorem residue_gfDot (row v : Column) : residue (gfDot row v) = row.residues ⬝ᵥ v.residues := by
  simp [gfDot, dotProduct, Fin.sum_univ_four, Column.residues, Column.get]

theorem residues_ofFn_gfDot (row : Fin 4 → Column) (v : Column) :
    (Column.ofFn fun r => gfDot (row r) v).residues = (residueMatrix row).mulVec v.residues :=
  funext fun r => (congrArg residue (Column.get_ofFn _ r)).trans (residue_gfDot (row r) v)

theorem mixColumn_residues (v : Column) :
    (mixColumn v).residues = (residueMatrix mixRow).mulVec v.residues :=
  residues_ofFn_gfDot mixRow v

theorem invMixColumn_residues (v : Column) :
    (invMixColumn v).residues = (residueMatrix invMixRow).mulVec v.residues :=
  residues_ofFn_gfDot invMixRow v

/-- The entries of the product of Minv (R218) and M (R217): row r of Minv against column c of M. -/
theorem gfDot_invMixRow_mixRow_column :
    ∀ r c : Fin 4, gfDot (invMixRow r) (Column.ofFn fun k => (mixRow k).get c) = if r = c then 1 else 0 := by
  decide

theorem residueMatrix_invMixRow_mul_mixRow : residueMatrix invMixRow * residueMatrix mixRow = 1 := by
  ext r c
  have hcol : (Column.ofFn fun k => (mixRow k).get c).residues = fun k => residueMatrix mixRow k c :=
    funext fun k => congrArg residue (Column.get_ofFn _ k)
  calc (residueMatrix invMixRow * residueMatrix mixRow) r c
    _ = residue (gfDot (invMixRow r) (Column.ofFn fun k => (mixRow k).get c)) := by
      rw [residue_gfDot, hcol, Matrix.mul_apply']
      rfl
    _ = (1 : Matrix (Fin 4) (Fin 4) (AdjoinRoot fieldPoly)) r c := by
      rw [gfDot_invMixRow_mixRow_column, Matrix.one_apply]
      split
      · exact residue_one
      · exact residue_zero

/-- A one-sided inverse of a square matrix over a commutative ring is two-sided. -/
theorem residueMatrix_mixRow_mul_invMixRow : residueMatrix mixRow * residueMatrix invMixRow = 1 :=
  mul_eq_one_comm.1 residueMatrix_invMixRow_mul_mixRow

@[simp] theorem invMixColumn_mixColumn (v : Column) : invMixColumn (mixColumn v) = v :=
  Column.residues_injective <| by
    rw [invMixColumn_residues, mixColumn_residues, Matrix.mulVec_mulVec,
      residueMatrix_invMixRow_mul_mixRow, Matrix.one_mulVec]

@[simp] theorem mixColumn_invMixColumn (v : Column) : mixColumn (invMixColumn v) = v :=
  Column.residues_injective <| by
    rw [mixColumn_residues, invMixColumn_residues, Matrix.mulVec_mulVec,
      residueMatrix_mixRow_mul_invMixRow, Matrix.one_mulVec]

/-! ### The transforms of the grid -/

@[simp] theorem invShiftRows_shiftRows (s : Grid) : invShiftRows (shiftRows s) = s :=
  Grid.ext_get fun r c => by rw [invShiftRows_get, shiftRows_get, sub_add_cancel]

@[simp] theorem shiftRows_invShiftRows (s : Grid) : shiftRows (invShiftRows s) = s :=
  Grid.ext_get fun r c => by rw [shiftRows_get, invShiftRows_get, add_sub_cancel_right]

@[simp] theorem invSubBytes_subBytes (s : Grid) : invSubBytes (subBytes s) = s :=
  Grid.ext_get fun r c => by rw [invSubBytes_get, subBytes_get, invSubByte_subByte]

@[simp] theorem subBytes_invSubBytes (s : Grid) : subBytes (invSubBytes s) = s :=
  Grid.ext_get fun r c => by rw [subBytes_get, invSubBytes_get, subByte_invSubByte]

@[simp] theorem invMixColumns_mixColumns (s : Grid) : invMixColumns (mixColumns s) = s :=
  Grid.ext_col fun c => by rw [invMixColumns_col, mixColumns_col, invMixColumn_mixColumn]

@[simp] theorem mixColumns_invMixColumns (s : Grid) : mixColumns (invMixColumns s) = s :=
  Grid.ext_col fun c => by rw [mixColumns_col, invMixColumns_col, mixColumn_invMixColumn]

/-- The slice's words cancel against themselves, and a column is its word unpacked. -/
@[simp] theorem addRoundKey_addRoundKey (w : Vector Word 60) (s : Grid) (off : Nat) :
    addRoundKey w (addRoundKey w s off) off = s :=
  Grid.ext_col fun c => by
    rw [addRoundKey_col, addRoundKey_stateWord, BitVec.xor_assoc, BitVec.xor_self, BitVec.xor_zero,
      Grid.stateWord, Column.ofWord_toWord]

/-! ### The statement -/

/-- Settles O57: each pair of transforms cancels byte by byte or column by column. -/
theorem inverseTransformsUndoTheTransforms : Obligations.InverseTransformsUndoTheTransforms :=
  fun s w off => ⟨invShiftRows_shiftRows s, shiftRows_invShiftRows s, invSubBytes_subBytes s,
    subBytes_invSubBytes s, invMixColumns_mixColumns s, mixColumns_invMixColumns s,
    addRoundKey_addRoundKey w s off⟩

end Sys2Proof.Machine
end

section
/-! PROOFS. The sequencer (45_cipher_engine.md): what one step of it makes of the state in each of its three running
states, and the step of an ENCRYPT or DECRYPT. -/

namespace Sys2Proof.Machine

/-! ### Which step the sequencer takes -/

/-- Both commands take the sequencer's step (R114). -/
theorem exec_cipher {i : Instr} {s : State} {p : Pending} (hi : i = .encrypt ∨ i = .decrypt)
    (ha : Accepted i s p) : exec i s = .next (sequencerStep p s) := by
  obtain ⟨⟨hp, -⟩, hv⟩ := ha
  rw [exec_accepted hp hv]
  obtain rfl | rfl := hi <;> rfl

theorem sequencerStep_of_initial (p : Pending) {s : State} (h : s.status.fsm = .initial) :
    sequencerStep p s = initialStep p s := by
  rw [sequencerStep, h]

theorem sequencerStep_of_round (p : Pending) {s : State} (h : s.status.fsm = .round) :
    sequencerStep p s = roundStep s := by
  rw [sequencerStep, h]

theorem sequencerStep_of_final (p : Pending) {s : State} (h : s.status.fsm = .final) :
    sequencerStep p s = finalStep p s := by
  rw [sequencerStep, h]

/-- The word in flight is an ENCRYPT or DECRYPT word. -/
theorem Accepted.isCipherWord_cmd {i : Instr} {s : State} {p : Pending} (ha : Accepted i s p)
    (hi : i = .encrypt ∨ i = .decrypt) : isCipherWord p.cmd = true := by
  obtain ⟨⟨-, hdecode⟩, -⟩ := ha
  exact (isCipherWord_of_decode hdecode).2 hi

/-! ### What each step does -/

/-- Completing an ENCRYPT or DECRYPT with success leaves FSM and ROUND (R115). -/
theorem complete_ok_of_isCipherWord (s : State) {cmd : Word} (h : isCipherWord cmd = true) :
    s.complete cmd .ok =
      { s with pending := none, status := { s.status with errcode := .ok } } := by
  simp [State.complete, statusComplete, h]

theorem initialStep_eq (p : Pending) (s : State) :
    initialStep p s = { s with
      grid := if s.status.dir = .encrypt then encInitial s.sched p.snap.din
        else decInitial s.sched s.status.nr.toNat p.snap.din
      written := { s.written with grid := true }
      status := { s.status with round := 1, fsm := .round } } := by
  unfold initialStep
  cases s.status.dir <;> rfl

theorem roundStep_eq (s : State) :
    roundStep s = { s with
      grid := if s.status.dir = .encrypt then encRound s.sched s.status.round.toNat s.grid
        else decRound s.sched s.status.nr.toNat s.status.round.toNat s.grid
      status := { s.status with
        round := if s.status.round.toNat < s.status.nr.toNat - 1 then s.status.round + 1 else s.status.nr
        fsm := if s.status.round.toNat < s.status.nr.toNat - 1 then .round else .final } } := by
  unfold roundStep
  cases s.status.dir <;> rfl

theorem finalStep_eq {p : Pending} (s : State) (h : isCipherWord p.cmd = true) :
    finalStep p s = { s with
      grid := if s.status.dir = .encrypt then encFinal s.sched s.status.nr.toNat s.grid
        else decFinal s.sched s.grid
      pending := none
      status := { s.status with fsm := .done, errcode := .ok } } := by
  rw [finalStep, complete_ok_of_isCipherWord _ h]
  cases s.status.dir <;> rfl

/-! ### The statements -/

/-- Settles O24: the sequencer's step in INITIAL is `initialStep`. -/
theorem sequencerInitialStep : Obligations.SequencerInitialStep := by
  intro i s p hi ha hfsm
  rw [exec_cipher hi ha, sequencerStep_of_initial p hfsm, initialStep_eq]
  rfl

/-- Settles O25: the sequencer's step in ROUND is `roundStep`; its increment of the four bits of ROUND is r + 1. -/
theorem sequencerRoundStep : Obligations.SequencerRoundStep := by
  rintro i s p r hi ha hfsm rfl - -
  have hinc : s.status.round + 1 = BitVec.ofNat 4 (s.status.round.toNat + 1) := by
    rw [BitVec.ofNat_add, BitVec.ofNat_toNat, BitVec.setWidth_eq]
    rfl
  rw [exec_cipher hi ha, sequencerStep_of_round p hfsm, roundStep_eq, hinc]
  rfl

/-- Settles O26: the sequencer's step in FINAL is `finalStep`, and the word in flight is a cipher word, so the
completion keeps FSM, now DONE, and ROUND, which is NR. -/
theorem sequencerFinalStep : Obligations.SequencerFinalStep := by
  intro i s p hi ha hfsm hround
  rw [exec_cipher hi ha, sequencerStep_of_final p hfsm, finalStep_eq s (ha.isCipherWord_cmd hi), ← hround]
  rfl

end Sys2Proof.Machine
end

section
/-! PROOFS. Errors (60_exceptions.md): which error the issue check reports for which word (R275), and that a command
whose verdict is an error only completes with it (R274, R276). -/

namespace Sys2Proof.Machine

/-! ### KEY_EXPAND and its length -/

theorem legalKeyLen_eq_false_iff {len : Byte} :
    legalKeyLen len = false ↔ len ≠ 16 ∧ len ≠ 24 ∧ len ≠ 32 := by
  simp [legalKeyLen, and_assoc]

/-- KEY_EXPAND has no operands, so one word decodes to it (R94). -/
theorem decode_eq_keyExpand_iff {v : Word} : decode v = .ok .keyExpand ↔ v = 0x00000030 := by
  have hmask : v &&& 0xFFFFFFFF#32 = v := BitVec.and_allOnes
  constructor
  · intro hd
    obtain ⟨-, hword, -⟩ := decode_ok_iff_mask.1 hd
    exact hmask.symm.trans hword
  · rintro rfl
    decide

/-! ### What a failing command leaves -/

/-- A command that fails completes with its error and, for INVALID_KEY_LENGTH alone, clears the key (R274, R276). -/
theorem fail_error (s : State) (cmd : Word) {e : ErrCode} (he : e ≠ .ok) :
    s.fail cmd e = afterError e { s with
      status := if e = .invalidKeyLength then statusClearKey s.status else s.status } := by
  by_cases hlen : e = .invalidKeyLength
  · subst hlen
    exact fail_invalidKeyLength s cmd
  · rw [if_neg hlen]
    exact fail_eq_afterError s cmd he hlen

/-- With no event waiting the step is the engine's turn (R20). -/
theorem step_nil {s : State} (he : s.events = []) : step s = engineStep s := by
  simp [step, he]

/-- With the engine's turn next the step is that turn (R74). -/
theorem step_engine {s : State} {es : List Event} (he : s.events = .engine :: es) :
    step s = engineStep { s with events := es } := by
  simp [step, he, runEvent]

/-! ### The statements -/

/-- Settles O7, by the cases of the check: only six commands can fail a check of their own, and each of those is
a chain of conditions, of which the first that holds names the error. -/
theorem verdictIsTheFirstApplicableError : Obligations.VerdictIsTheFirstApplicableError := by
  intro v kv nr h
  cases hd : decode v with
  | error _ => simp [check, hd]
  | ok i =>
    simp only [check, hd, Except.ok.injEq]
    cases i with
    | keyExpand => simp [checkInstr, ite_eq_iff, legalKeyLen_eq_false_iff]
    | loadState => simp [checkInstr, ite_eq_iff]
    | encrypt | decrypt => cases kv <;> simp [checkInstr, checkCipher, ite_eq_iff]
    | addRoundKey off => cases kv <;> simp [checkInstr, ite_eq_iff]
    | rcon j => simp [checkInstr, ite_eq_iff]
    | _ => simp [checkInstr]

/-- Settles O10: exec and the engine's turn both fail the command; under the invariant the code of a completion is
the verdict, also for a word that is no command. -/
theorem failedCommandOnlyCompletes : Obligations.FailedCommandOnlyCompletes := by
  intro s p hi hp hv kept
  have hcode : completionCode p = p.verdict := completionCode_eq_verdict hi hp
  have hc : completionCode p ≠ .ok := hcode.trans_ne hv
  refine ⟨fun i _ => ?exec, fun hr he => ?no_event, fun es hr he => ?engine_event⟩
  case exec =>
    rw [exec_failed hp hv, fail_error s p.cmd hv]
    rfl
  case no_event =>
    rw [step_nil he, engineStep_failed hr hp hc, hcode, fail_error _ p.cmd hv]
    rfl
  case engine_event =>
    rw [step_engine he, engineStep_failed (by exact hr) (by exact hp) hc, hcode, fail_error _ p.cmd hv]
    rfl

/-- Settles O11: O7 names KEY_EXPAND as the one command with this error, and one word decodes to it; a failure with
this error clears the key. -/
theorem invalidKeyLengthClearsTheKey : Obligations.InvalidKeyLengthClearsTheKey := by
  refine ⟨fun v kv nr h => ?raised, fun s p hflight hv => ?left⟩
  case raised =>
    obtain ⟨-, hlen, -⟩ := verdictIsTheFirstApplicableError v kv nr h
    rw [hlen, decode_eq_keyExpand_iff]
  case left =>
    obtain ⟨hp, -⟩ := hflight
    rw [exec_failed hp (by rw [hv]; decide), hv, fail_invalidKeyLength]
    rfl

end Sys2Proof.Machine
end

section
/-! PROOFS. Hazards (70_reset_and_hazards.md): the command in flight reads the input registers only through its
snapshot, and takes a number of engine steps that its opcode, its verdict and NR fix. -/

namespace Sys2Proof.Machine

/-! ### Host writes to the input registers -/

/-- `s` with the input registers `r`, and nothing else changed. -/
def State.withRegs (s : State) (r : HostRegs) : State := { s with regs := r }

@[simp] theorem State.withRegs_status (s : State) (r : HostRegs) : (s.withRegs r).status = s.status := rfl

@[simp] theorem State.withRegs_self (s : State) : s.withRegs s.regs = s := rfl

/-- The offsets of KEYLEN, BLKLEN, OPW, KEY and DIN name input registers (R62). -/
theorem regAt_input {off : Nat}
    (ho : off = 0x008 ∨ off = 0x00C ∨ off = 0x010 ∨ (0x020 ≤ off ∧ off < 0x050)) :
    regAt off = .keylen ∨ regAt off = .blklen ∨ regAt off = .opw ∨ (∃ k, regAt off = .key k) ∨
      ∃ k, regAt off = .din k := by
  generalize hr : regAt off = r
  unfold regAt at hr
  split_ifs at hr <;> subst hr <;> simp <;> omega

/-- A write to an input register changes the input registers alone (R64); while rst_n = 0 it changes nothing. -/
theorem hostWrite_input {off : Nat} (v : Word) (s : State)
    (ho : off = 0x008 ∨ off = 0x00C ∨ off = 0x010 ∨ (0x020 ≤ off ∧ off < 0x050)) :
    hostWrite off v s = s.withRegs (if s.rstN = true then writeInput (regAt off) v s.regs else s.regs) := by
  by_cases hr : s.rstN = true
  · rw [hostWrite, if_pos hr, if_pos hr]
    rcases regAt_input ho with h | h | h | ⟨k, h⟩ | ⟨k, h⟩ <;> rw [h] <;> rfl
  · rw [hostWrite, if_neg hr, if_neg hr, State.withRegs_self]

/-! ### A command's step and the input registers -/

/-- The sequencer reads DIN from the snapshot (R111), and writes no input register. -/
theorem sequencerStep_withRegs (p : Pending) (s : State) (r : HostRegs) :
    sequencerStep p (s.withRegs r) = (sequencerStep p s).withRegs r := by
  rw [sequencerStep, sequencerStep, State.withRegs_status]
  cases s.status.fsm <;> rfl

/-- An accepted command reads its operands from the snapshot (R111), and writes no input register. -/
theorem acceptedStep_withRegs (i : Instr) (p : Pending) (s : State) (r : HostRegs) :
    acceptedStep i p (s.withRegs r) = (acceptedStep i p s).withRegs r := by
  cases i
  case encrypt | decrypt => exact sequencerStep_withRegs p s r
  all_goals rfl

theorem fail_withRegs (s : State) (cmd : Word) (e : ErrCode) (r : HostRegs) :
    (s.withRegs r).fail cmd e = (s.fail cmd e).withRegs r := by
  unfold State.fail
  split <;> rfl

/-- With nothing in flight exec holds the state (R290). -/
theorem exec_idle (i : Instr) {s : State} (hp : s.pending = none) : exec i s = .next s := by
  simp [exec_eq, hp]

/-- The engine step of a command commutes with a change of the input registers. -/
theorem exec_withRegs {i : Instr} {s t : State} (h : exec i s = .next t) (r : HostRegs) :
    exec i (s.withRegs r) = .next (t.withRegs r) := by
  cases hp : s.pending with
  | none =>
    cases (exec_idle i hp).symm.trans h
    exact exec_idle i hp
  | some p =>
    by_cases hv : p.verdict = .ok
    · cases (exec_accepted hp hv).symm.trans h
      rw [exec_accepted (s := s.withRegs r) hp hv, acceptedStep_withRegs]
    · cases (exec_failed hp hv).symm.trans h
      rw [exec_failed (s := s.withRegs r) hp hv, fail_withRegs]

theorem sequencerStep_frame (p : Pending) (s : State) :
    (sequencerStep p s).rstN = s.rstN ∧ (sequencerStep p s).regs = s.regs := by
  unfold sequencerStep
  split <;> exact ⟨rfl, rfl⟩

theorem acceptedStep_frame (i : Instr) (p : Pending) (s : State) :
    (acceptedStep i p s).rstN = s.rstN ∧ (acceptedStep i p s).regs = s.regs := by
  cases i
  case encrypt | decrypt => exact sequencerStep_frame p s
  all_goals exact ⟨rfl, rfl⟩

/-- A command's step leaves rst_n and the input registers as they are (R22, R25, R26). -/
theorem exec_frame {i : Instr} {s t : State} (h : exec i s = .next t) : t.rstN = s.rstN ∧ t.regs = s.regs := by
  cases hp : s.pending with
  | none =>
    cases (exec_idle i hp).symm.trans h
    exact ⟨rfl, rfl⟩
  | some p =>
    by_cases hv : p.verdict = .ok
    · cases (exec_accepted hp hv).symm.trans h
      exact acceptedStep_frame i p s
    · cases (exec_failed hp hv).symm.trans h
      obtain ⟨hrst, hregs, -⟩ := fail_frame s p.cmd p.verdict
      exact ⟨hrst, hregs⟩

/-! ### Runs that complete after a number of steps -/

/-- BUSY is 1 from `s` on until the `n`-th step, which clears it. -/
def CompletesIn : Nat → State → Prop
  | 0, s => s.busy = false
  | n + 1, s => s.busy = true ∧ ∃ t, step s = .next t ∧ CompletesIn n t

/-- A run that begins with a step is that step and the rest of the run. -/
theorem run_succ {M : Host.Core} {s t : M.State} (h : M.step s = .next t) (k : Nat) :
    M.run (k + 1) s = M.run k t := by
  rw [Host.Core.run, h]

theorem CompletesIn.run {n : Nat} {s : State} (h : CompletesIn n s) :
    (∀ k, k < n → ∃ u, Host.Core.run core k s = .next u ∧ u.busy = true) ∧
      ∃ t, Host.Core.run core n s = .next t ∧ t.busy = false := by
  induction n generalizing s with
  | zero => exact ⟨fun k hk => absurd hk k.not_lt_zero, s, rfl, h⟩
  | succ n ih =>
    obtain ⟨hb, u, hstep, hrest⟩ := h
    obtain ⟨hbusy, hdone⟩ := ih hrest
    refine ⟨fun k hk => ?_, by rwa [run_succ (M := core) hstep]⟩
    cases k with
    | zero => exact ⟨s, rfl, hb⟩
    | succ k =>
      rw [run_succ (M := core) hstep]
      exact hbusy k (Nat.lt_of_succ_lt_succ hk)

/-! ### The command in flight and its turn -/

theorem busy_of_pending {s : State} {p : Pending} (hp : s.pending = some p) : s.busy = true := by
  rw [State.busy, hp]
  rfl

theorem completesIn_one {s t : State} {p : Pending} (hp : s.pending = some p) (hs : step s = .next t)
    (ht : t.pending = none) : CompletesIn 1 s :=
  ⟨busy_of_pending hp, t, hs, by rw [CompletesIn, State.busy, ht]; rfl⟩

theorem cipherRunning_eq {s : State} {p : Pending} (hp : s.pending = some p) :
    cipherRunning s = (p.verdict == .ok && isCipherWord p.cmd) := by
  rw [cipherRunning, hp]

/-- A command in flight that is not to complete with an error is an accepted one. -/
theorem exists_accepted {s : State} {p : Pending} (hp : s.pending = some p) (hc : completionCode p = .ok) :
    ∃ i, Accepted i s p := by
  cases hd : decode p.cmd with
  | ok i => exact ⟨i, ⟨hp, hd⟩, by simpa [completionCode, hd] using hc⟩
  | error _ => simp [completionCode, hd] at hc

/-- With no event waiting, the step of a block with a command in flight is that command's (R20, R114). -/
theorem step_inFlight {i : Instr} {s : State} {p : Pending} (hr : s.rstN = true) (he : s.events = [])
    (hf : InFlight i s p) : step s = exec i s.tick := by
  obtain ⟨hp, hd⟩ := hf
  simp [step_nil he, engineStep, hr, hp, hd]

/-- An accepted command other than ENCRYPT and DECRYPT completes in its one step. -/
theorem acceptedStep_pending {i : Instr} (p : Pending) (s : State) (hi : ¬(i = .encrypt ∨ i = .decrypt)) :
    (acceptedStep i p s).pending = none := by
  cases i
  case encrypt | decrypt => simp at hi
  all_goals rfl

/-- A command in flight that is no accepted ENCRYPT or DECRYPT completes in one step (R114, R116). -/
theorem completesIn_one_of_not_cipherRunning {s : State} {p : Pending} (hr : s.rstN = true)
    (he : s.events = []) (hp : s.pending = some p) (hc : cipherRunning s = false) : CompletesIn 1 s := by
  by_cases hcode : completionCode p = .ok
  · obtain ⟨i, hf, hv⟩ := exists_accepted hp hcode
    have hword : ¬ isCipherWord p.cmd = true := by simpa [cipherRunning_eq hp, hv] using hc
    have hi : ¬(i = .encrypt ∨ i = .decrypt) := by rwa [isCipherWord_of_decode hf.2] at hword
    exact completesIn_one hp ((step_inFlight hr he hf).trans (exec_accepted hp hv)) (acceptedStep_pending p _ hi)
  · obtain ⟨u, hu, hdone⟩ := engineStep_completesWith_error hr hp hcode
    exact completesIn_one hp ((step_nil he).trans hu) hdone.pending

/-! ### An ENCRYPT or DECRYPT to its completion -/

/-- The next step is a sequencer step of an accepted ENCRYPT or DECRYPT: no event waits before it. -/
structure SequencerTurn (i : Instr) (p : Pending) (s : State) : Prop where
  rstN : s.rstN = true
  events : s.events = []
  accepted : Accepted i s p
  cipher : i = .encrypt ∨ i = .decrypt

namespace SequencerTurn

variable {i : Instr} {p : Pending} {s : State}

theorem pending (h : SequencerTurn i p s) : s.pending = some p := h.accepted.1.1

theorem step_eq (h : SequencerTurn i p s) : step s = .next (sequencerStep p s.tick) :=
  (step_inFlight h.rstN h.events h.accepted.1).trans (exec_cipher (s := s.tick) h.cipher h.accepted)

/-- The initial step leaves the command in flight (R244). -/
theorem step_initial (h : SequencerTurn i p s) (hf : s.status.fsm = .initial) :
    step s = .next (initialStep p s.tick) ∧ SequencerTurn i p (initialStep p s.tick) :=
  ⟨by rw [h.step_eq, sequencerStep_of_initial p (by exact hf)], h.rstN, h.events, h.accepted, h.cipher⟩

/-- A round leaves the command in flight (R245). -/
theorem step_round (h : SequencerTurn i p s) (hf : s.status.fsm = .round) :
    step s = .next (roundStep s.tick) ∧ SequencerTurn i p (roundStep s.tick) :=
  ⟨by rw [h.step_eq, sequencerStep_of_round p (by exact hf)], h.rstN, h.events, h.accepted, h.cipher⟩

/-- In FINAL one step is left (R246). -/
theorem completesIn_final (h : SequencerTurn i p s) (hf : s.status.fsm = .final) : CompletesIn 1 s := by
  have hstep : step s = .next (finalStep p s.tick) := by
    rw [h.step_eq, sequencerStep_of_final p (by exact hf)]
  exact completesIn_one h.pending hstep rfl

/-- In ROUND the rounds from ROUND to NR - 1 are left, `d + 1` of them, and the final one (R245, R246). -/
theorem completesIn_round {d : Nat} (h : SequencerTurn i p s) (hf : s.status.fsm = .round)
    (hd : s.status.round.toNat + (d + 1) = s.status.nr.toNat) : CompletesIn (d + 2) s := by
  induction d generalizing s with
  | zero =>
    obtain ⟨hstep, hnext⟩ := h.step_round hf
    have hlast : ¬ s.status.round.toNat < s.status.nr.toNat - 1 := by omega
    exact ⟨busy_of_pending h.pending, _, hstep, hnext.completesIn_final (by simp [roundStep_eq, hlast])⟩
  | succ d ih =>
    obtain ⟨hstep, hnext⟩ := h.step_round hf
    have hmore : s.status.round.toNat < s.status.nr.toNat - 1 := by omega
    refine ⟨busy_of_pending h.pending, _, hstep, ih hnext (by simp [roundStep_eq, hmore]) ?_⟩
    simp [roundStep_eq, hmore]
    omega

/-- In INITIAL all NR + 1 steps are left: the initial one, NR - 1 rounds and the final one (R244). -/
theorem completesIn_initial (h : SequencerTurn i p s) (hf : s.status.fsm = .initial)
    (hnr : 2 ≤ s.status.nr.toNat) : CompletesIn (s.status.nr.toNat + 1) s := by
  obtain ⟨hstep, hnext⟩ := h.step_initial hf
  obtain ⟨d, hd⟩ := Nat.exists_eq_add_of_le' hnr
  have hrounds : CompletesIn (d + 2) (initialStep p s.tick) :=
    hnext.completesIn_round rfl (by simp [initialStep_eq, hd]; omega)
  rw [hd]
  exact ⟨busy_of_pending h.pending, _, hstep, hrounds⟩

end SequencerTurn

/-- An ENCRYPT or DECRYPT passes its check only with a valid key (R275). -/
theorem keyValid_of_accepted_cipher {i : Instr} {s : State} {p : Pending} (hi : Inv s) (ha : Accepted i s p)
    (hc : i = .encrypt ∨ i = .decrypt) : s.status.keyValid = true := by
  obtain ⟨⟨hp, hd⟩, hv⟩ := ha
  have hcheck : check p.cmd s.status.keyValid s.status.nr p.snap = .ok := (hi.verdict p hp).symm.trans hv
  cases hk : s.status.keyValid with
  | true => rfl
  | false => obtain rfl | rfl := hc <;> simp [check, hd, checkInstr, checkCipher, hk] at hcheck

/-- NR of a valid key is 10, 12 or 14 (R10), so there are rounds between the initial and the final one. -/
theorem two_le_nr {s : State} (hi : Inv s) (hk : s.status.keyValid = true) : 2 ≤ s.status.nr.toNat := by
  obtain ⟨-, h⟩ | ⟨-, h⟩ | ⟨-, h⟩ := hi.key.sizes hk <;> rw [h] <;> decide

/-- The command of a running sequencer is an accepted ENCRYPT or DECRYPT. -/
theorem exists_accepted_cipher {s : State} {p : Pending} (hi : Inv s) (hp : s.pending = some p)
    (hc : cipherRunning s = true) : ∃ i, Accepted i s p ∧ (i = .encrypt ∨ i = .decrypt) := by
  obtain ⟨hv, hword⟩ : p.verdict = .ok ∧ isCipherWord p.cmd = true := by
    simpa [cipherRunning_eq hp] using hc
  obtain ⟨i, ha⟩ := exists_accepted hp ((completionCode_eq_verdict hi hp).trans hv)
  exact ⟨i, ha, (isCipherWord_of_decode ha.1.2).1 hword⟩

/-! ### The statements -/

/-- Settles O28: an accepted ENCRYPT or DECRYPT goes through the sequencer's NR + 1 steps, by induction on the
rounds left; every other command completes in its one step, whether it is accepted or fails. -/
theorem everyCommandCompletesInItsStepCount : Obligations.EveryCommandCompletesInItsStepCount := by
  intro s hi hr he hb hinit
  obtain ⟨p, hp⟩ := Option.isSome_iff_exists.1 hb
  apply CompletesIn.run
  cases hc : cipherRunning s with
  | false =>
    rw [stepsAtIssue, if_neg (by simp [hc])]
    exact completesIn_one_of_not_cipherRunning hr he hp hc
  | true =>
    obtain ⟨i, ha, hcipher⟩ := exists_accepted_cipher hi hp hc
    have hnr : 2 ≤ s.status.nr.toNat := two_le_nr hi (keyValid_of_accepted_cipher hi ha hcipher)
    rw [stepsAtIssue, if_pos hc]
    exact SequencerTurn.completesIn_initial ⟨hr, he, ha, hcipher⟩ (hinit hc) hnr

/-- Settles O38: the write is a change of the input registers, which commutes with the command's step; the step
keeps rst_n and the input registers, so the write after it stores the same values. -/
theorem inputWritesDoNotDisturbTheCommand : Obligations.InputWritesDoNotDisturbTheCommand := by
  intro i s off v ho
  obtain ⟨t, ht⟩ : ∃ t, exec i s = .next t := ⟨_, exec_eq i s⟩
  obtain ⟨hrst, hregs⟩ := exec_frame ht
  rw [hostWrite_input v s ho, exec_withRegs ht, ht, mapNext, hostWrite_input v t ho, hrst, hregs]

end Sys2Proof.Machine
end

section
/-! PROOFS. The encoder against the decoder (R95, R98): the fields of an encoded command are its opcode and
operands, and a word is fixed by its fields. -/

namespace Sys2Proof

/-- The operand fields a command's format does not use are zero in its encoding (R92, R98). -/
theorem unusedZero_encode (i : Instr) : unusedZero (formatOf i) (encode i) = true := by
  cases i <;> simp [unusedZero, formatOf, operandA, operandB]

/-- Settles O2: the encoding's fields select the command's row of the opcode map. -/
theorem decodeOfEncodeIsTheCommand : Obligations.DecodeOfEncodeIsTheCommand := by
  intro i hwf
  refine decode_ok_iff.2 ⟨?_, rsvField_encode i, unusedZero_encode i⟩
  rw [opcField_encode, aField_encode, bField_encode, opcodeRow_opcodeOf i hwf]

/-- Settles O3: the word and the encoding have the same four fields. -/
theorem encodeOfDecodeIsTheWord : Obligations.EncodeOfDecodeIsTheWord := by
  intro w i hd
  obtain ⟨hwf, -, ha, hb⟩ := decode_ok_iff_mask.1 hd
  obtain ⟨-, hrsv, -⟩ := decode_ok_iff.1 hd
  refine ⟨word_eq_iff_fields.2 ⟨?_, ?_, ?_, ?_⟩, hwf⟩
  · rw [opcField_encode, opcField_of_decode hd]
  · rw [aField_encode, ha]
  · rw [bField_encode, hb]
  · rw [rsvField_encode, hrsv]

/-- Settles O1: each listed word is decoded by evaluation. -/
theorem specWordsDecodeAsListed : Obligations.SpecWordsDecodeAsListed := by
  unfold Obligations.SpecWordsDecodeAsListed
  decide

end Sys2Proof
end

section
/-! PROOFS. The commands other than ENCRYPT and DECRYPT: an accepted one has its effect and completes with success.
What the effect of each is: the value written to RESULT, the schedule, the key fields, and the grid byte by byte. -/

namespace Sys2Proof.Machine

/-! ### The step of an accepted command -/

/-- The step of a command other than ENCRYPT and DECRYPT is its effect and its completion (R114). -/
theorem acceptedStep_eq_complete {i : Instr} (hi : ¬(i = .encrypt ∨ i = .decrypt)) (p : Pending) (s : State) :
    acceptedStep i p s = (effectOf i p s).complete p.cmd .ok := by
  cases i
  case encrypt | decrypt => simp at hi
  all_goals rfl

/-- The word of such a command keeps neither FSM nor ROUND when it completes (R115). -/
theorem acceptedStep_eq_afterSuccess {i : Instr} {s : State} {p : Pending} (ha : Accepted i s p)
    (hi : ¬(i = .encrypt ∨ i = .decrypt)) (u : State) :
    acceptedStep i p u = afterSuccess (effectOf i p u) := by
  have hword : isCipherWord p.cmd = false := by
    rwa [← isCipherWord_of_decode ha.1.2, Bool.not_eq_true] at hi
  rw [acceptedStep_eq_complete hi, complete_ok _ hword]

theorem exec_eq_afterSuccess {i : Instr} {s : State} {p : Pending} (ha : Accepted i s p)
    (hi : ¬(i = .encrypt ∨ i = .decrypt)) : exec i s = .next (afterSuccess (effectOf i p s)) := by
  rw [exec_accepted ha.1.1 ha.2, acceptedStep_eq_afterSuccess ha hi]

/-- Settles O36: exec answers a next state in each of its cases. -/
theorem noCommandStops : Obligations.NoCommandStops := fun i s => ⟨_, exec_eq i s⟩

/-- Settles O12: NOP has no effect but completion. -/
theorem nopOnlyCompletes : Obligations.NopOnlyCompletes := fun _ _ ha =>
  exec_eq_afterSuccess ha (by simp)

/-- Settles O19: the effect is that of `State.clearKey`. -/
theorem keyClearEndsTheInstance : Obligations.KeyClearEndsTheInstance := fun _ _ ha =>
  exec_eq_afterSuccess ha (by simp)

/-! ### RESULT -/

/-- `xtime` with the high bit named as the most significant one (R141). -/
theorem xtime_eq_ite_msb (a : Byte) : xtime a = if a.msb then (a <<< 1) ^^^ 0x1b#8 else a <<< 1 := by
  rw [xtime, BitVec.msb_eq_getLsbD_last]

/-- Settles O13: each effect is the write of the field function's value. -/
theorem fieldCommandsWriteResult : Obligations.FieldCommandsWriteResult := by
  intro a b s p
  refine ⟨fun ha => exec_eq_afterSuccess ha (by simp), fun ha => ?_,
    fun ha => exec_eq_afterSuccess ha (by simp)⟩
  rw [← xtime_eq_ite_msb]
  exact exec_eq_afterSuccess ha (by simp)

/-- In a table whose rows all have `n` entries, entry `c` of row `r` is entry `n * r + c` of the rows in
sequence. -/
theorem getD_flatten_of_row_length {α : Type*} {n c : Nat} (d : α) (hc : c < n) (rows : List (List α))
    (hrows : ∀ row ∈ rows, row.length = n) (r : Nat) :
    rows.flatten.getD (n * r + c) d = (rows.getD r []).getD c d := by
  induction rows generalizing r with
  | nil => simp
  | cons row rows ih =>
    obtain ⟨hrow, hrest⟩ := List.forall_mem_cons.1 hrows
    cases r with
    | zero => simp [List.getElem?_append_left (hrow ▸ hc : c < row.length)]
    | succ r =>
      have hidx : n * (r + 1) + c = row.length + (n * r + c) := by rw [hrow, Nat.mul_succ]; omega
      rw [List.flatten_cons, hidx, List.getD_append_right _ _ _ _ (Nat.le_add_right ..),
        Nat.add_sub_cancel_left, ih hrest, List.getD_cons_succ]

/-- Row b[7:4] and column b[3:0] are entry b of the table read row by row (R160). -/
theorem tableEntry_eq_flatten_getD {rows : List (List Byte)} (hrows : ∀ row ∈ rows, row.length = 16)
    (b : Byte) : tableEntry rows b = rows.flatten.getD b.toNat 0 := by
  have hrow : (b.extractLsb' 4 4).toNat = b.toNat / 16 := by
    have := b.isLt
    rw [BitVec.extractLsb'_toNat, Nat.shiftRight_eq_div_pow]
    omega
  have hcol : (b.extractLsb' 0 4).toNat = b.toNat % 16 := by
    rw [BitVec.extractLsb'_toNat, Nat.shiftRight_zero]
  rw [tableEntry, hrow, hcol, ← getD_flatten_of_row_length 0 (Nat.mod_lt _ (by decide)) rows hrows,
    Nat.div_add_mod]

/-- Settles O14: each effect is the write of the table's entry, the tables being 16 by 16. -/
theorem substitutionCommandsWriteResult : Obligations.SubstitutionCommandsWriteResult := by
  intro a s p
  rw [← tableEntry_eq_flatten_getD (rows := sboxRows) (by decide),
    ← tableEntry_eq_flatten_getD (rows := invSboxRows) (by decide)]
  exact ⟨fun ha => exec_eq_afterSuccess ha (by simp), fun ha => exec_eq_afterSuccess ha (by simp)⟩

/-- Moving the first byte of a word to its end rotates it left by a byte (R181). -/
theorem rotWord_eq_rotateLeft (w : Word) : rotWord w = w.rotateLeft 8 := by
  ext k hk
  rw [← BitVec.getLsbD_eq_getElem, ← BitVec.getLsbD_eq_getElem, rotWord, packWord_getLsbD,
    BitVec.getLsbD_rotateLeft]
  interval_cases k <;> simp [byteOf]

/-- Settles O15: each effect is the write of the word function's value at the snapshot's OPW. -/
theorem wordCommandsWriteResult : Obligations.WordCommandsWriteResult := by
  intro s p
  rw [← rotWord_eq_rotateLeft]
  exact ⟨fun ha => exec_eq_afterSuccess ha (by simp), fun ha => exec_eq_afterSuccess ha (by simp)⟩

/-- The hardware's table of round constants holds the powers of x (R180). -/
theorem rconBytes_getD : ∀ j : Fin 14, rconBytes.getD j 0 = (xtime^[j]) 0x01#8 := by decide

theorem rcon_eq_shift {j : Nat} (hj : j ≤ 13) : rcon j = ((xtime^[j]) 0x01#8).setWidth 32 <<< 24 := by
  rw [rcon, rconBytes_getD ⟨j, by omega⟩, packWord_eq_or]
  simp

/-- Settles O16: the effect is the write of the table's entry, a power of x in the top byte. -/
theorem rconWritesPowerOfX : Obligations.RconWritesPowerOfX := by
  intro j s p hj ha
  rw [← rcon_eq_shift hj]
  exact exec_eq_afterSuccess ha (by simp)

/-! ### The schedule -/

/-- A legal key length is that of 4, 6 or 8 words (R10, R23). -/
theorem nkOfLen_of_legalKeyLen {len : Byte} (h : legalKeyLen len = true) :
    nkOfLen len = 4 ∨ nkOfLen len = 6 ∨ nkOfLen len = 8 := by
  have hlen : (len = 16 ∨ len = 24) ∨ len = 32 := by simpa [legalKeyLen] using h
  obtain (rfl | rfl) | rfl := hlen <;> decide

/-- The schedule of any snapshot has 4·(Nr+1) words (R183). -/
theorem scheduleOf_length (snap : HostRegs) :
    (scheduleOf snap).length = 4 * (nrOfNk (nkOfLen snap.keylen) + 1) :=
  expand_length _ (by rw [nrOfNk]; omega)

/-- KEY_EXPAND writes the words of the schedule and leaves the rest of W (R40, R184). -/
theorem keyExpandEffect_sched_getElem (snap : HostRegs) (s : State) (i : Fin 60) :
    (keyExpandEffect snap s).sched[i] =
      if i.val < 4 * (nrOfNk (nkOfLen snap.keylen) + 1) then (scheduleOf snap).getD i.val 0
      else s.sched[i] := by
  have hword : (keyExpandEffect snap s).sched[i] = (scheduleOf snap).getD i.val s.sched[i] :=
    overwriteFirst_getElem ..
  rw [hword]
  split
  next hi =>
    rw [← scheduleOf_length] at hi
    rw [List.getD_eq_getElem _ _ hi, List.getD_eq_getElem _ _ hi]
  next hi => exact List.getD_eq_default _ _ (by rw [scheduleOf_length]; omega)

/-- Settles O17: the three legal lengths are those of Nk = 4, 6 and 8, and Nr = Nk + 6. -/
theorem keyExpandWritesSchedule : Obligations.KeyExpandWritesSchedule := by
  intro s p nk nr ha hsize
  have hnk : nkOfLen p.snap.keylen = nk := by
    obtain ⟨h, rfl, -⟩ | ⟨h, rfl, -⟩ | ⟨h, rfl, -⟩ := hsize <;> rw [h] <;> decide
  have hnr : nrOfNk nk = nr := by rw [nrOfNk]; omega
  refine ⟨(keyExpandEffect p.snap s).sched, ?_, fun i => ?_⟩
  · rw [exec_eq_afterSuccess ha (by simp), ← hnr, ← hnk, ← scheduleOf_length]
    rfl
  · rw [keyExpandEffect_sched_getElem, scheduleOf, hnk, hnr]

/-! ### The grid -/

/-- Settles O20: byte r of column c is byte r of DINc. -/
theorem loadStateFillsTheGrid : Obligations.LoadStateFillsTheGrid := by
  intro s p ha
  refine ⟨loadBlock p.snap.din, exec_eq_afterSuccess ha (by simp), fun r c => ?_, loadBlock_stateWord _⟩
  rw [Grid.get, loadBlock_col, Column.get_ofWord, byteOf]

/-- Settles O21: each effect is the transform of the grid, byte by byte; the row shifts' sums and differences are
those of columns modulo 4. -/
theorem byteAndRowTransformsMapTheGrid : Obligations.ByteAndRowTransformsMapTheGrid := by
  intro s p
  refine ⟨fun ha => ⟨_, exec_eq_afterSuccess ha (by simp), subBytes_get _⟩,
    fun ha => ⟨_, exec_eq_afterSuccess ha (by simp), invSubBytes_get _⟩,
    fun ha => ⟨_, exec_eq_afterSuccess ha (by simp), fun r c d hd => ?left⟩,
    fun ha => ⟨_, exec_eq_afterSuccess ha (by simp), fun r c d hd => ?right⟩⟩
  case left =>
    have hcol : c + r = d := Fin.ext (by rw [hd, Fin.val_add])
    rw [shiftRows_get, hcol]
  case right =>
    have hcol : c - r = d := Fin.ext (by rw [hd, Fin.val_sub]; omega)
    rw [invShiftRows_get, hcol]

/-- In a matrix whose rows are the rotations of one, row r times a column is that one row times the column from
byte r on (R217, R218). -/
theorem gfDot_of_rotated_rows {row : Fin 4 → Column} {a : Column}
    (hrow : ∀ r k, (row r).get k = a.get (k - r)) (v : Column) (r : Fin 4) :
    gfDot (row r) v = multiply a.b0 (v.get r) ^^^ multiply a.b1 (v.get (r + 1)) ^^^
      multiply a.b2 (v.get (r + 2)) ^^^ multiply a.b3 (v.get (r + 3)) := by
  have hfrom : (Column.ofFn fun k => v.get (k + r)).residues = fun k => residue (v.get (k + r)) :=
    funext fun k => congrArg residue (Column.get_ofFn _ k)
  have hsum : residue (gfDot (row r) v) = residue (gfDot a (Column.ofFn fun k => v.get (k + r))) :=
    calc residue (gfDot (row r) v)
      _ = ∑ k, residue (a.get (k - r)) * residue (v.get k) := by
        simp only [residue_gfDot, dotProduct, Column.residues, hrow]
      _ = ∑ k, residue (a.get k) * residue (v.get (k + r)) := by
        rw [← Equiv.sum_comp (Equiv.addRight r)]
        simp
      _ = residue (gfDot a (Column.ofFn fun k => v.get (k + r))) := by
        rw [residue_gfDot, hfrom]
        rfl
  rw [residue_injective hsum]
  simp [gfDot, gfAdd, Column.ofFn, add_comm]

/-- Byte r of a product with M: 2, 3, 1 and 1 times the bytes from row r on (R217). -/
theorem mixColumn_get (v : Column) (r : Fin 4) :
    (mixColumn v).get r = multiply 0x02 (v.get r) ^^^ multiply 0x03 (v.get (r + 1)) ^^^
      v.get (r + 2) ^^^ v.get (r + 3) := by
  have hone (b : Byte) : multiply 1#8 b = b := residue_injective (by simp)
  rw [mixColumn, Column.get_ofFn, gfDot_of_rotated_rows (a := mixRow 0) (by decide)]
  simp [mixRow, hone]

/-- Byte r of a product with Minv: 14, 11, 13 and 9 times the bytes from row r on (R218). -/
theorem invMixColumn_get (v : Column) (r : Fin 4) :
    (invMixColumn v).get r = multiply 0x0e (v.get r) ^^^ multiply 0x0b (v.get (r + 1)) ^^^
      multiply 0x0d (v.get (r + 2)) ^^^ multiply 0x09 (v.get (r + 3)) := by
  rw [invMixColumn, Column.get_ofFn, gfDot_of_rotated_rows (a := invMixRow 0) (by decide)]
  rfl

/-- Settles O22: each effect is the product of every column with the matrix. -/
theorem columnTransformsMultiplyByTheMatrix : Obligations.ColumnTransformsMultiplyByTheMatrix := by
  intro s p
  refine ⟨fun ha => ⟨_, exec_eq_afterSuccess ha (by simp), ?forward⟩,
    fun ha => ⟨_, exec_eq_afterSuccess ha (by simp), ?inverse⟩⟩
  case forward =>
    rintro r c _ _ _ rfl rfl rfl
    rw [Grid.get, mixColumns_col, mixColumn_get]
    rfl
  case inverse =>
    rintro r c _ _ _ rfl rfl rfl
    rw [Grid.get, invMixColumns_col, invMixColumn_get]
    rfl

/-- Settles O23: the effect is AddRoundKey with the slice at `off`. -/
theorem addRoundKeyXorsTheSlice : Obligations.AddRoundKeyXorsTheSlice := by
  intro off s p _ ha
  refine ⟨_, exec_eq_afterSuccess ha (by simp), fun c i hi => ?_⟩
  rw [addRoundKey_stateWord, ← hi, wordAt_eq_getElem]

end Sys2Proof.Machine
end

section
/-! PROOFS. Everything a step can do to the block, said once with the state it leaves, and the invariant that each of
these moves keeps. -/

namespace Sys2Proof.Machine

/-! ### The moves of a step -/

/-- `s` with the inputs still to come `es` and the free value's index `n`, the model's own fields (log entries 2
and 3). -/
def State.advance (s : State) (es : List Event) (n : Nat) : State := { s with events := es, epoch := n }

/-- The engine's turn takes the step of an accepted command (R114). -/
theorem engineStep_accepted {i : Instr} {s : State} {p : Pending} (hr : s.rstN = true) (ha : Accepted i s p) :
    engineStep s = .next (acceptedStep i p s.tick) := by
  obtain ⟨⟨hp, hd⟩, hv⟩ := ha
  simp [engineStep_eq, hr, hp, hd, hv]

/-- Everything the engine's turn can do: nothing, the step of an accepted command, or a failure. -/
theorem engineStep_cases {s t : State} (h : engineStep s = .next t) :
    t = s ∨
    (∃ i p, s.rstN = true ∧ Accepted i s p ∧ t = acceptedStep i p s.tick) ∨
    ∃ p, s.rstN = true ∧ s.pending = some p ∧ completionCode p ≠ .ok ∧
      t = s.tick.fail p.cmd (completionCode p) := by
  by_cases hr : s.rstN = true
  case neg =>
    rw [engineStep_eq, if_neg hr] at h
    exact .inl (Host.Outcome.next.inj h).symm
  case pos =>
    cases hp : s.pending with
    | none =>
      simp only [engineStep_eq, hp, ite_self, Host.Outcome.next.injEq] at h
      exact .inl h.symm
    | some p =>
      by_cases hc : completionCode p = .ok
      · obtain ⟨i, ha⟩ := exists_accepted hp hc
        have hstep := engineStep_accepted hr ha
        exact .inr (.inl ⟨i, p, hr, ha, Host.Outcome.next.inj (h.symm.trans hstep)⟩)
      · have hstep := engineStep_failed hr hp hc
        exact .inr (.inr ⟨p, hr, rfl, hc, Host.Outcome.next.inj (h.symm.trans hstep)⟩)

/-- What the step from `s` to `t` did, with the whole state it leaves. -/
inductive StepMove (s t : State) : Prop where
  /-- the engine's turn: the step of an accepted command -/
  | accepted (es : List Event) (n : Nat) (i : Instr) (p : Pending) (hr : s.rstN = true)
      (ha : Accepted i s p) (h : t = acceptedStep i p (s.advance es n))
  /-- the engine's turn: a command in flight fails -/
  | failed (es : List Event) (n : Nat) (p : Pending) (hr : s.rstN = true) (hp : s.pending = some p)
      (hc : completionCode p ≠ .ok) (h : t = (s.advance es n).fail p.cmd (completionCode p))
  /-- the host issues a command -/
  | issued (es : List Event) (n : Nat) (v : Word) (hr : s.rstN = true) (hp : s.pending = none)
      (h : t = issue v (s.advance es n))
  /-- the host sets OVR, or clears ERR and OVR -/
  | flags (es : List Event) (n : Nat) (err ovr : Bool) (hr : s.rstN = true)
      (h : t = { s.advance es n with status := { s.status with err := err, ovr := ovr } })
  /-- input registers, rst_n and bus_rdata at most change, and no register while rst_n = 0 -/
  | ports (es : List Event) (n : Nat) (regs : HostRegs) (rst : Bool) (rdata : Word)
      (hheld : rst = false → s.rstN = false ∧ regs = s.regs)
      (h : t = { s.advance es n with regs := regs, rstN := rst, busRdata := rdata })
  /-- rst_n falls -/
  | reset (es : List Event) (n : Nat) (he : s.events = .rst false :: es)
      (h : t = setRst false (s.advance es n))

/-- The engine's turn, once its event has been taken off the list, is one of the moves. -/
theorem stepMove_of_engineStep {s t : State} {es : List Event}
    (h : engineStep { s with events := es } = .next t) : StepMove s t := by
  obtain rfl | ⟨i, p, hr, ha, rfl⟩ | ⟨p, hr, hp, hc, rfl⟩ := engineStep_cases h
  · exact .ports es s.epoch s.regs s.rstN s.busRdata (fun h => ⟨h, rfl⟩) rfl
  · exact .accepted es (s.epoch + 1) i p hr ha rfl
  · exact .failed es (s.epoch + 1) p hr hp hc rfl

/-- A host write, once its event has been taken off the list, is one of the moves. -/
theorem stepMove_of_hostWrite (s : State) (off : Nat) (v : Word) (es : List Event) :
    StepMove s (hostWrite off v { s with events := es }).tick := by
  by_cases hr : s.rstN = true
  case neg =>
    rw [hostWrite, if_neg hr]
    exact .ports es (s.epoch + 1) s.regs s.rstN s.busRdata (fun h => ⟨h, rfl⟩) rfl
  case pos =>
    obtain ⟨-, -, hw⟩ | ⟨-, -, hw⟩ | ⟨r, hw⟩ := hostWrite_cases off v { s with events := es } <;> rw [hw]
    · cases hb : s.busy with
      | true =>
        rw [writeCmd_busy (by exact hb)]
        exact .flags es (s.epoch + 1) _ _ hr rfl
      | false =>
        have hp : s.pending = none := by simpa using hb
        rw [writeCmd_idle (by exact hp)]
        exact .issued es (s.epoch + 1) v hr hp rfl
    · exact .flags es (s.epoch + 1) _ _ hr rfl
    · exact .ports es (s.epoch + 1) r s.rstN s.busRdata (fun h => by simp [hr] at h) rfl

/-- Every step is one of the moves. -/
theorem step_move {s t : State} (h : step s = .next t) : StepMove s t := by
  rcases step_cases h with ⟨he, hs⟩ | ⟨es, -, hs⟩ | ⟨off, es, -, -, -, rfl⟩ |
    ⟨off, v, es, -, -, -, rfl⟩ | ⟨level, es, he, rfl⟩
  · exact stepMove_of_engineStep (es := s.events) hs
  · exact stepMove_of_engineStep hs
  · exact .ports es s.epoch s.regs s.rstN _ (fun h => ⟨h, rfl⟩) rfl
  · exact stepMove_of_hostWrite s off v es
  · cases level with
    | true => exact .ports es (s.epoch + 1) s.regs true s.busRdata (fun h => by simp at h) rfl
    | false => exact .reset es (s.epoch + 1) he rfl

/-! ### The key part of the invariant -/

/-- The part of the invariant about the key: its fields, its schedule, and how much of W has been written. -/
structure KeyStored (s : State) : Prop where
  key : KeyInv s.status s.sched
  written : (s.status.keyValid = true → 4 * (s.status.nr.toNat + 1) ≤ s.written.sched) ∧
    s.written.sched ≤ 60

theorem Inv.keyStored {s : State} (h : Inv s) : KeyStored s := ⟨h.key, h.written⟩

/-- The key part speaks of KEY_VALID, NK, NR, W and how much of it has been written, and of nothing else. -/
theorem KeyStored.congr {s t : State} (h : KeyStored s) (hvalid : t.status.keyValid = s.status.keyValid)
    (hnk : t.status.nk = s.status.nk) (hnr : t.status.nr = s.status.nr) (hsched : t.sched = s.sched)
    (hwritten : t.written.sched = s.written.sched) : KeyStored t := by
  obtain ⟨⟨hnoKey, hsizes, hschedule⟩, hwords⟩ := h
  constructor
  · constructor <;> rw [hvalid, hnk, hnr]
    · exact hnoKey
    · exact hsizes
    · rw [hsched]
      exact hschedule
  · rw [hvalid, hnr, hwritten]
    exact hwords

/-- With the key cleared the schedule is bound to nothing (R33). -/
theorem keyStored_clearKey {s : State} (h : KeyStored s) : KeyStored s.clearKey :=
  ⟨⟨fun _ => ⟨rfl, rfl⟩, fun hv => by simp at hv, fun hv => by simp at hv⟩, fun hv => by simp at hv, h.written.2⟩

/-- NR of a legal length fits its field (R184). -/
theorem keyExpandEffect_nr_toNat {snap : HostRegs} (hlen : legalKeyLen snap.keylen = true) (s : State) :
    (keyExpandEffect snap s).status.nr.toNat = nrOfNk (nkOfLen snap.keylen) := by
  obtain h | h | h := nkOfLen_of_legalKeyLen hlen <;> simp [keyExpandEffect, h, nrOfNk]

/-- A KEY_EXPAND of a legal length stores a key whole: its sizes, its schedule, and the marks (R184). -/
theorem keyStored_keyExpandEffect {s : State} (h : KeyStored s) {snap : HostRegs}
    (hlen : legalKeyLen snap.keylen = true) : KeyStored (keyExpandEffect snap s) := by
  have hnk := nkOfLen_of_legalKeyLen hlen
  have hnkField : (keyExpandEffect snap s).status.nk.toNat = nkOfLen snap.keylen := by
    obtain h | h | h := hnk <;> simp [keyExpandEffect, h]
  have hnrField := keyExpandEffect_nr_toNat hlen s
  have hwritten : (keyExpandEffect snap s).written.sched =
      max s.written.sched (4 * (nrOfNk (nkOfLen snap.keylen) + 1)) := by
    rw [← scheduleOf_length]
    rfl
  refine ⟨⟨fun hv => by simp [keyExpandEffect] at hv, fun _ => ?sizes, fun _ => ⟨snap.key, fun i hi => ?word⟩⟩,
    fun _ => ?marked, ?bound⟩
  case sizes => obtain h | h | h := hnk <;> simp [keyExpandEffect, h, nrOfNk]
  case word =>
    rw [hnrField] at hi
    rw [hnkField, hnrField, keyExpandEffect_sched_getElem, if_pos hi, scheduleOf]
  case marked =>
    rw [hnrField, hwritten]
    exact le_max_right ..
  case bound =>
    have hbound := h.written.2
    rw [hwritten, nrOfNk]
    omega

/-- The effect of every command but KEY_EXPAND and KEY_CLEAR leaves the key part as it is. -/
theorem keyStored_effectOf {i : Instr} {p : Pending} {s : State} (h : KeyStored s)
    (hlen : i = .keyExpand → legalKeyLen p.snap.keylen = true) : KeyStored (effectOf i p s) := by
  cases i with
  | keyExpand => exact keyStored_keyExpandEffect h (hlen rfl)
  | keyClear => exact keyStored_clearKey h
  | _ => exact h.congr rfl rfl rfl rfl rfl

theorem keyStored_fail {s : State} (h : KeyStored s) (cmd : Word) (e : ErrCode) :
    KeyStored (s.fail cmd e) := by
  unfold State.fail
  split
  · exact (keyStored_clearKey h).congr rfl rfl rfl rfl rfl
  · exact h.congr rfl rfl rfl rfl rfl

/-! ### The invariant after each move -/

/-- With rst_n = 1 and no command in flight, the invariant is its key part and the resting sequencer. -/
theorem inv_of_idle {s : State} (hr : s.rstN = true) (hp : s.pending = none) (hk : KeyStored s)
    (hrest : RestingPosition s.status) : Inv s where
  key := hk.key
  verdict p h := by simp [hp] at h
  running h := by simp [cipherRunning, hp] at h
  resting _ := hrest
  held h := by simp [hr] at h
  written := hk.written

/-- The invariant does not look at RESULT, the grid and its marks, bus_rdata, the inputs, the index, ERR or OVR. -/
theorem inv_advance {s : State} (h : Inv s) (es : List Event) (n : Nat) : Inv (s.advance es n) :=
  ⟨h.key, h.verdict, h.running, h.resting, h.held, h.written⟩

/-- The verdict of an accepted command is what its check gives now (R112, R275). -/
theorem checkInstr_of_accepted {i : Instr} {s : State} {p : Pending} (hi : Inv s) (ha : Accepted i s p) :
    checkInstr i s.status.keyValid s.status.nr p.snap = .ok := by
  obtain ⟨⟨hp, hd⟩, hv⟩ := ha
  simpa [hv, check, hd, eq_comm] using hi.verdict p hp

/-- A KEY_EXPAND is accepted only with a legal length (R275). -/
theorem legalKeyLen_of_accepted {s : State} {p : Pending} (hi : Inv s) (ha : Accepted .keyExpand s p) :
    legalKeyLen p.snap.keylen = true := by
  simpa [checkInstr] using checkInstr_of_accepted hi ha

theorem cipherRunning_of_accepted {i : Instr} {s : State} {p : Pending} (ha : Accepted i s p)
    (hc : i = .encrypt ∨ i = .decrypt) : cipherRunning s = true := by
  rw [cipherRunning_eq ha.1.1, ha.2, ha.isCipherWord_cmd hc]
  rfl

/-- From `s` to `t` only the sequencer's position moves, of what the invariant looks at. -/
structure MovesPosition (s t : State) : Prop where
  rstN : t.rstN = s.rstN
  pending : t.pending = s.pending
  dir : t.status.dir = s.status.dir
  keyValid : t.status.keyValid = s.status.keyValid
  nk : t.status.nk = s.status.nk
  nr : t.status.nr = s.status.nr
  sched : t.sched = s.sched
  written : t.written.sched = s.written.sched

/-- While a command runs, moving the sequencer to another running position keeps the invariant. -/
theorem inv_of_movesPosition {s t : State} (hi : Inv s) (hr : s.rstN = true) (hc : cipherRunning s = true)
    (h : MovesPosition s t) (hpos : RunningPosition t.status) : Inv t := by
  have hk : KeyStored t := hi.keyStored.congr h.keyValid h.nk h.nr h.sched h.written
  have hct : cipherRunning t = true := by rw [← hc, cipherRunning, cipherRunning, h.pending]
  refine ⟨hk.key, ?_, fun _ => ⟨hpos, ?_⟩, fun hn => by simp [hct] at hn, fun hn => by simp [h.rstN, hr] at hn,
    hk.written⟩
  · rw [h.pending, h.keyValid, h.nr]
    exact hi.verdict
  · rw [h.pending, h.dir]
    exact (hi.running hc).2

/-- After the initial step the sequencer is in its first round (R244). -/
theorem inv_initialStep {s : State} (hi : Inv s) (hr : s.rstN = true) (hc : cipherRunning s = true)
    (hkey : s.status.keyValid = true) (p : Pending) : Inv (initialStep p s) := by
  have hnr := two_le_nr hi hkey
  have hmoves : MovesPosition s (initialStep p s) := ⟨rfl, rfl, rfl, rfl, rfl, rfl, rfl, rfl⟩
  exact inv_of_movesPosition hi hr hc hmoves (.inr (.inl ⟨rfl, le_rfl, hnr⟩))

/-- After a round below NR - 1 the sequencer is in the next round (R245). -/
theorem roundStep_position_of_lt {s : State} (h : s.status.round.toNat < s.status.nr.toNat - 1) :
    (roundStep s).status.fsm = .round ∧ (roundStep s).status.round.toNat = s.status.round.toNat + 1 := by
  have hnr := s.status.nr.isLt
  simp only [roundStep, State.setPosition_status, if_pos h, State.mapGrid_status, BitVec.toNat_add, true_and]
  simp
  omega

/-- After round NR - 1 it is in the final one (R245). -/
theorem roundStep_position_of_last {s : State} (h : ¬ s.status.round.toNat < s.status.nr.toNat - 1) :
    (roundStep s).status.fsm = .final ∧ (roundStep s).status.round = s.status.nr := by
  simp [roundStep, h]

/-- After a round the sequencer is in the next one or in the final one (R245). -/
theorem inv_roundStep {s : State} (hi : Inv s) (hr : s.rstN = true) (hc : cipherRunning s = true) :
    Inv (roundStep s) := by
  have hmoves : MovesPosition s (roundStep s) := ⟨rfl, rfl, rfl, rfl, rfl, rfl, rfl, rfl⟩
  refine inv_of_movesPosition hi hr hc hmoves ?_
  by_cases hmore : s.status.round.toNat < s.status.nr.toNat - 1
  · obtain ⟨hfsm, hround⟩ := roundStep_position_of_lt hmore
    exact .inr (.inl ⟨hfsm, by omega, show _ ≤ s.status.nr.toNat by omega⟩)
  · exact .inr (.inr (roundStep_position_of_last hmore))

/-- After the final step the sequencer rests in DONE, with ROUND = NR and a valid key (R246). -/
theorem inv_finalStep {s : State} (hi : Inv s) (hr : s.rstN = true) {p : Pending}
    (hword : isCipherWord p.cmd = true) (hround : s.status.round = s.status.nr)
    (hkey : s.status.keyValid = true) : Inv (finalStep p s) := by
  rw [finalStep_eq s hword]
  exact inv_of_idle hr rfl (hi.keyStored.congr rfl rfl rfl rfl rfl) (.inr ⟨rfl, hround, hkey⟩)

/-- The step of an accepted ENCRYPT or DECRYPT keeps the invariant: it moves the sequencer to the next position. -/
theorem inv_sequencerStep {i : Instr} {s : State} {p : Pending} (hi : Inv s) (hr : s.rstN = true)
    (ha : Accepted i s p) (hcipher : i = .encrypt ∨ i = .decrypt) : Inv (sequencerStep p s) := by
  have hc := cipherRunning_of_accepted ha hcipher
  have hkey := keyValid_of_accepted_cipher hi ha hcipher
  obtain ⟨hpos, -⟩ := hi.running hc
  obtain ⟨hfsm, -⟩ | ⟨hfsm, -⟩ | ⟨hfsm, hround⟩ := hpos
  · rw [sequencerStep_of_initial p hfsm]
    exact inv_initialStep hi hr hc hkey p
  · rw [sequencerStep_of_round p hfsm]
    exact inv_roundStep hi hr hc
  · rw [sequencerStep_of_final p hfsm]
    exact inv_finalStep hi hr (ha.isCipherWord_cmd hcipher) hround hkey

/-- The step of every accepted command keeps the invariant; one that completes leaves the sequencer IDLE (R115). -/
theorem inv_acceptedStep {i : Instr} {s : State} {p : Pending} (hi : Inv s) (hr : s.rstN = true)
    (ha : Accepted i s p) : Inv (acceptedStep i p s) := by
  by_cases hcipher : i = .encrypt ∨ i = .decrypt
  case pos =>
    obtain rfl | rfl := hcipher <;> exact inv_sequencerStep hi hr ha (by simp)
  case neg =>
    rw [acceptedStep_eq_afterSuccess ha hcipher]
    have hk : KeyStored (effectOf i p s) :=
      keyStored_effectOf hi.keyStored fun h => legalKeyLen_of_accepted hi (h ▸ ha)
    have hrst : (effectOf i p s).rstN = true := by cases i <;> exact hr
    exact inv_of_idle hrst rfl (hk.congr rfl rfl rfl rfl rfl) (.inl ⟨rfl, rfl⟩)

/-- A failure keeps the invariant, with or without the key (R274, R276). -/
theorem inv_fail {s : State} (hi : Inv s) (hr : s.rstN = true) (cmd : Word) {e : ErrCode} (he : e ≠ .ok) :
    Inv (s.fail cmd e) := by
  have hk := keyStored_fail hi.keyStored cmd e
  rw [fail_error s cmd he] at hk ⊢
  exact inv_of_idle hr rfl hk (.inl ⟨rfl, rfl⟩)

/-- A block whose key part and sequencer are those of reset and that has no command in flight. -/
theorem inv_setRst_false (s : State) : Inv (setRst false s) where
  key := ⟨fun _ => ⟨rfl, rfl⟩, fun h => by simp [setRst, State.reset, Status.reset] at h,
    fun h => by simp [setRst, State.reset, Status.reset] at h⟩
  verdict p h := by simp [setRst, State.reset] at h
  running h := by simp [cipherRunning, setRst, State.reset] at h
  resting _ := .inl ⟨rfl, rfl⟩
  held _ := ⟨rfl, rfl, rfl⟩
  written := ⟨fun h => by simp [setRst, State.reset, Status.reset] at h, Nat.zero_le _⟩

/-! ### The statements -/

/-- Settles O48: each move keeps the invariant. -/
theorem invariantKeptByEveryStep : Obligations.InvariantKeptByEveryStep := by
  intro s t hi h
  cases step_move h with
  | accepted es n i p hr ha ht =>
    rw [ht]
    exact inv_acceptedStep (inv_advance hi es n) hr ha
  | failed es n p hr hp hc ht =>
    rw [ht]
    exact inv_fail (inv_advance hi es n) hr p.cmd hc
  | issued es n v hr hp ht =>
    rw [ht]
    exact inv_issue (inv_advance hi es n) hp hr v
  | flags es n err ovr hr ht =>
    rw [ht]
    exact ⟨⟨hi.key.noKey, hi.key.sizes, hi.key.schedule⟩, hi.verdict, hi.running, hi.resting,
      fun h => absurd (hr.symm.trans h) (by decide), hi.written⟩
  | ports es n regs rst rdata hheld ht =>
    rw [ht]
    refine ⟨hi.key, hi.verdict, hi.running, hi.resting, fun h => ?_, hi.written⟩
    obtain ⟨hr, hregs⟩ := hheld h
    obtain ⟨hp, hstatus, hreset⟩ := hi.held hr
    exact ⟨hp, hstatus, hregs.trans hreset⟩
  | reset es n he ht =>
    rw [ht]
    exact inv_setRst_false _

/-- Settles O47: no key, no command, and the sequencer in IDLE. -/
theorem invariantAtReset : Obligations.InvariantAtReset := by
  have hk : KeyStored State.reset :=
    ⟨(inv_setRst_false State.reset).key, (inv_setRst_false State.reset).written⟩
  exact inv_of_idle rfl rfl hk (.inl ⟨rfl, rfl⟩)

end Sys2Proof.Machine
end

section
/-! PROOFS. Data not written since reset (R305, U1, U2): every operation of the block takes two states that agree on
what has been written to two that do, provided that it uses nothing else. -/

namespace Sys2Proof.Machine

/-! ### What agrees when what is used has been written -/

theorem getElem_of_firstWritten {k n : Nat} {ws : Vector Bool k} (h : firstWritten ws n = true) (i : Fin k)
    (hi : i.val < n) : ws[i] = true := by
  have hall : ∀ j, j < n → (ws[j]?).getD true = true := by simpa [firstWritten] using h
  simpa using hall i hi

theorem wordAt_congr {n i : Nat} {v w : Vector Word n} (h : ∀ k : Fin n, k.val = i → v[k] = w[k]) :
    wordAt v i = wordAt w i := by
  by_cases hi : i < n
  · exact (wordAt_eq_getElem v ⟨i, hi⟩).trans ((h _ rfl).trans (wordAt_eq_getElem w ⟨i, hi⟩).symm)
  · simp [wordAt, hi]

namespace HostRegs.Agree

variable {a b : HostRegs}

theorem refl (a : HostRegs) : a.Agree a :=
  ⟨rfl, rfl, rfl, rfl, rfl, fun _ _ => rfl, fun _ _ => rfl, fun _ => rfl⟩

theorem din_eq (h : a.Agree b) (hw : firstWritten a.dinWritten 4 = true) : a.din = b.din :=
  Vector.ext fun i hi => h.din ⟨i, hi⟩ (getElem_of_firstWritten hw ⟨i, hi⟩ hi)

theorem keyByte_eq (h : a.Agree b) {n : Nat} (hw : firstWritten a.keyWritten n = true) {j : Nat}
    (hj : j < 4 * n) : keyByte a.key j = keyByte b.key j := by
  have hword : wordAt a.key (j / 4) = wordAt b.key (j / 4) :=
    wordAt_congr fun k hk => h.key k (getElem_of_firstWritten hw k (by omega))
  rw [keyByte, keyByte, hword]

theorem scheduleOf_eq (h : a.Agree b) (hw : firstWritten a.keyWritten (nkOfLen a.keylen) = true) :
    scheduleOf a = scheduleOf b := by
  have hbytes : keyBytes a.key (nkOfLen a.keylen) = keyBytes b.key (nkOfLen a.keylen) :=
    List.map_congr_left fun j hj => h.keyByte_eq hw (List.mem_range.1 hj)
  rw [scheduleOf, scheduleOf, ← h.keylen, hbytes]

/-- The check reads the length registers alone, and those are never unwritten (R275). -/
theorem check_eq (h : a.Agree b) (v : Word) (kv : Bool) (nr : BitVec 4) : check v kv nr a = check v kv nr b := by
  simp only [check, checkInstr, checkCipher, h.keylen, h.blklen]

/-- A write to an input register, the same on both sides, leaves the register equal and written. -/
theorem writeInput (h : a.Agree b) (r : Reg) (v : Word) :
    (Machine.writeInput r v a).Agree (Machine.writeInput r v b) := by
  cases r with
  | keylen => exact { h with keylen := rfl }
  | blklen => exact { h with blklen := rfl }
  | opw => exact { h with opwWritten := rfl, opw := fun _ => rfl }
  | key k =>
    refine { h with keyWritten := congrArg (·.set k true) h.keyWritten, key := fun j hj => ?_ }
    have hold := h.key j
    by_cases hjk : k = j <;> simp_all [Machine.writeInput, Vector.getElem_set, Fin.ext_iff]
  | din k =>
    refine { h with dinWritten := congrArg (·.set k true) h.dinWritten, din := fun j hj => ?_ }
    have hold := h.din j
    by_cases hjk : k = j <;> simp_all [Machine.writeInput, Vector.getElem_set, Fin.ext_iff]
  | cmd | status | result | state | sched | reserved => exact h

end HostRegs.Agree

/-! ### Operations on states that agree -/

namespace State.Agree

variable {s t : State}

theorem advance (h : s.Agree t) (es : List Event) (n : Nat) : (s.advance es n).Agree (t.advance es n) :=
  { h with events := rfl, epoch := rfl }

theorem tick (h : s.Agree t) : s.tick.Agree t.tick :=
  { h with epoch := congrArg (· + 1) h.epoch }

theorem withRegs (h : s.Agree t) {a b : HostRegs} (hab : a.Agree b) : (s.withRegs a).Agree (t.withRegs b) :=
  { h with regs := hab }

theorem withRstN (h : s.Agree t) (level : Bool) :
    State.Agree { s with rstN := level } { t with rstN := level } :=
  { h with rstN := rfl }

theorem withBusRdata (h : s.Agree t) (v : Word) :
    State.Agree { s with busRdata := v } { t with busRdata := v } :=
  { h with busRdata := rfl }

/-- No field of STATUS is ever unwritten, so an update of it has the same outcome on both sides. -/
theorem mapStatus (h : s.Agree t) (f : Status → Status) :
    State.Agree { s with status := f s.status } { t with status := f t.status } :=
  { h with status := congrArg f h.status }

theorem withResult (h : s.Agree t) (v : Word) : (s.withResult v).Agree (t.withResult v) :=
  { h with written := congrArg (fun w => { w with result := true }) h.written, result := fun _ => rfl }

theorem withGrid (h : s.Agree t) (g : Grid) : (s.withGrid g).Agree (t.withGrid g) :=
  { h with written := congrArg (fun w => { w with grid := true }) h.written, grid := fun _ => rfl }

theorem mapGrid (h : s.Agree t) {f g : Grid → Grid} (hfg : s.written.grid = true → f s.grid = g t.grid) :
    (s.mapGrid f).Agree (t.mapGrid g) :=
  { h with grid := hfg }

theorem withSchedule (h : s.Agree t) (ws : List Word) : (s.withSchedule ws).Agree (t.withSchedule ws) := by
  refine { h with
    written := congrArg (fun w => { w with sched := max w.sched ws.length }) h.written
    sched := fun i hi => ?_ }
  have hword (old : Vector Word 60) : (overwriteFirst ws old)[i] = ws.getD i.val old[i] :=
    overwriteFirst_getElem ..
  rw [State.withSchedule_sched, State.withSchedule_sched, hword, hword]
  by_cases hlen : i.val < ws.length
  · rw [List.getD_eq_getElem _ _ hlen, List.getD_eq_getElem _ _ hlen]
  · rw [h.sched i ((lt_max_iff.1 hi).resolve_right hlen)]

theorem complete (h : s.Agree t) (cmd : Word) (e : ErrCode) : (s.complete cmd e).Agree (t.complete cmd e) :=
  { h.mapStatus (statusComplete (e == .ok && isCipherWord cmd) e) with
    busy := rfl
    pending := fun p q hp => by simp at hp }

theorem fail (h : s.Agree t) (cmd : Word) (e : ErrCode) : (s.fail cmd e).Agree (t.fail cmd e) := by
  unfold State.fail
  split
  · exact State.Agree.complete (h.mapStatus statusClearKey) cmd e
  · exact h.complete cmd e

theorem keyExpandEffect (h : s.Agree t) {a b : HostRegs} (hab : a.Agree b)
    (hw : firstWritten a.keyWritten (nkOfLen a.keylen) = true) :
    (Machine.keyExpandEffect a s).Agree (Machine.keyExpandEffect b t) := by
  rw [Machine.keyExpandEffect, Machine.keyExpandEffect, ← hab.scheduleOf_eq hw, ← hab.keylen]
  exact (h.withSchedule _).mapStatus (statusSetKey _ _)

/-- AddRoundKey with a written slice of W is the same function of the grid. -/
theorem addRoundKey_eq (h : s.Agree t) {off : Nat} (hoff : off + 4 ≤ s.written.sched) (g : Grid) :
    addRoundKey s.sched g off = addRoundKey t.sched g off :=
  Grid.ext_col fun c => by
    have hword : wordAt s.sched (off + c.val) = wordAt t.sched (off + c.val) :=
      wordAt_congr fun k hk => h.sched k (by omega)
    rw [addRoundKey_col, addRoundKey_col, hword]

/-! ### The commands -/

/-- The effect of a command that uses nothing unwritten. -/
theorem effectOf (h : s.Agree t) {p q : Pending} (hpq : p.Agree q) {i : Instr}
    (hu : usesWritten i p s = true) : (Machine.effectOf i p s).Agree (Machine.effectOf i q t) := by
  have hgrid {f : Grid → Grid} (hg : s.written.grid = true) : (s.mapGrid f).Agree (t.mapGrid f) :=
    h.mapGrid fun _ => by rw [h.grid hg]
  cases i with
  | keyExpand => exact h.keyExpandEffect hpq.snap hu
  | keyClear => exact h.mapStatus statusClearKey
  | rotWord | subWord =>
    rw [Machine.effectOf, Machine.effectOf, ← hpq.snap.opw hu]
    exact h.withResult _
  | gfAdd | gfXtime | gfMul | sbox | invSbox | rcon => exact h.withResult _
  | loadState =>
    rw [Machine.effectOf, Machine.effectOf, ← hpq.snap.din_eq hu]
    exact h.withGrid _
  | subBytes | invSubBytes | shiftRows | invShiftRows | mixColumns | invMixColumns => exact hgrid hu
  | addRoundKey off =>
    obtain ⟨hg, hoff⟩ : s.written.grid = true ∧ off + 4 ≤ s.written.sched := by
      simpa [usesWritten] using hu
    have hkey : (fun g => Machine.addRoundKey s.sched g off) = fun g => Machine.addRoundKey t.sched g off :=
      funext (h.addRoundKey_eq hoff)
    rw [Machine.effectOf, Machine.effectOf, hkey]
    exact hgrid hg
  | nop | encrypt | decrypt => exact h

theorem setPosition (h : s.Agree t) (fsm : Fsm) (round : BitVec 4) :
    (s.setPosition fsm round).Agree (t.setPosition fsm round) :=
  h.mapStatus fun st => { st with fsm := fsm, round := round }

theorem initialStep (h : s.Agree t) {p q : Pending} (hfsm : s.status.fsm = .initial)
    (hslice : sliceOffset s.status + 4 ≤ s.written.sched) (hdin : p.snap.din = q.snap.din) :
    (Machine.initialStep p s).Agree (Machine.initialStep q t) := by
  have hkey := h.addRoundKey_eq hslice (loadBlock p.snap.din)
  rw [Machine.initialStep, Machine.initialStep, ← h.status, ← hdin]
  cases hdir : s.status.dir <;> simp only [sliceOffset, hfsm, hdir] at hkey
  · rw [encInitial, encInitial, ← hkey]
    exact (h.withGrid _).setPosition _ _
  · rw [decInitial, decInitial, ← hkey]
    exact (h.withGrid _).setPosition _ _

theorem roundStep (h : s.Agree t) (hfsm : s.status.fsm = .round)
    (hslice : sliceOffset s.status + 4 ≤ s.written.sched) (hg : s.written.grid = true) :
    (Machine.roundStep s).Agree (Machine.roundStep t) := by
  have hkey := h.addRoundKey_eq hslice
  rw [Machine.roundStep, Machine.roundStep, ← h.status]
  refine setPosition (h.mapGrid fun _ => ?_) _ _
  rw [← h.grid hg]
  cases hdir : s.status.dir <;> simp only [sliceOffset, hfsm, hdir] at hkey
  · exact hkey _
  · exact congrArg invMixColumns (hkey _)

theorem finalStep (h : s.Agree t) {p q : Pending} (hpq : p.Agree q) (hfsm : s.status.fsm = .final)
    (hslice : sliceOffset s.status + 4 ≤ s.written.sched) (hg : s.written.grid = true) :
    (Machine.finalStep p s).Agree (Machine.finalStep q t) := by
  have hkey := h.addRoundKey_eq hslice
  rw [Machine.finalStep, Machine.finalStep, ← h.status, ← hpq.cmd]
  refine complete (setPosition (h.mapGrid fun _ => ?_) _ _) _ _
  rw [← h.grid hg]
  cases hdir : s.status.dir <;> simp only [sliceOffset, hfsm, hdir] at hkey
  · exact hkey _
  · exact hkey _

/-- The sequencer's step that uses nothing unwritten. -/
theorem sequencerStep (h : s.Agree t) {p q : Pending} (hpq : p.Agree q)
    (hu : usesWritten.cipherUsesWritten p s = true) :
    (Machine.sequencerStep p s).Agree (Machine.sequencerStep q t) := by
  obtain ⟨hslice, hdata⟩ : sliceOffset s.status + 4 ≤ s.written.sched ∧
      (if s.status.fsm = .initial then firstWritten p.snap.dinWritten 4 else s.written.grid) = true := by
    simpa [usesWritten.cipherUsesWritten] using hu
  rw [Machine.sequencerStep, Machine.sequencerStep, ← h.status]
  cases hfsm : s.status.fsm <;> simp only [hfsm, if_true, reduceCtorEq, if_false] at hdata
  · exact h
  · exact h.initialStep hfsm hslice (hpq.snap.din_eq hdata)
  · exact h.roundStep hfsm hslice hdata
  · exact h.finalStep hpq hfsm hslice hdata
  · exact h

/-- The step of an accepted command that uses nothing unwritten. -/
theorem acceptedStep (h : s.Agree t) {p q : Pending} (hpq : p.Agree q) {i : Instr}
    (hu : usesWritten i p s = true) : (Machine.acceptedStep i p s).Agree (Machine.acceptedStep i q t) := by
  by_cases hi : i = .encrypt ∨ i = .decrypt
  · obtain rfl | rfl := hi <;> exact h.sequencerStep hpq hu
  · rw [acceptedStep_eq_complete hi, acceptedStep_eq_complete hi, ← hpq.cmd]
    exact (h.effectOf hpq hu).complete p.cmd .ok

/-! ### The engine's turn -/

/-- One of two blocks that agree has a command in flight exactly when the other has. -/
theorem pending_none (h : s.Agree t) (hp : s.pending = none) : t.pending = none := by
  have hb := h.busy
  simpa [hp] using hb

theorem pending_some (h : s.Agree t) {p : Pending} (hp : s.pending = some p) :
    ∃ q, t.pending = some q ∧ p.Agree q := by
  have hb := h.busy
  rw [busy_of_pending hp] at hb
  obtain ⟨q, hq⟩ := Option.isSome_iff_exists.1 hb.symm
  exact ⟨q, hq, h.pending p q hp hq⟩

/-- The engine's turn that uses nothing unwritten; without rst_n it uses nothing. -/
theorem engineStep (h : s.Agree t) (hu : (!s.rstN || engineUsesWritten s) = true) :
    OutcomesAgree (Machine.engineStep s) (Machine.engineStep t) := by
  rw [engineStep_eq, engineStep_eq, ← h.rstN]
  by_cases hr : s.rstN = true
  case neg =>
    rw [if_neg hr, if_neg hr]
    exact h
  case pos =>
    rw [if_pos hr, if_pos hr]
    cases hp : s.pending with
    | none =>
      rw [h.pending_none hp]
      exact h
    | some p =>
      obtain ⟨q, hq, hpq⟩ := h.pending_some hp
      rw [hq]
      simp only [← hpq.cmd, ← hpq.verdict]
      cases hd : decode p.cmd with
      | error _ => exact h.tick.fail _ _
      | ok i =>
        by_cases hv : p.verdict = .ok
        · have huses : usesWritten i p s = true := by simpa [engineUsesWritten, hr, hp, hd, hv] using hu
          simp only [if_pos hv]
          exact h.tick.acceptedStep hpq (by cases i <;> exact huses)
        · simp only [if_neg hv]
          exact h.tick.fail _ _

/-! ### The host's accesses -/

theorem engineValue_eq (h : s.Agree t) (off : Nat) {a b : Word} (hab : s.pending = none → a = b) :
    engineValue off a s = engineValue off b t := by
  rw [engineValue, engineValue, ← h.busy, ← h.epoch]
  split
  next => rfl
  next hb => exact hab (by simpa using hb)

/-- A read of a register that is written, or whose value is free, returns the same on both sides. -/
theorem readValue_eq (h : s.Agree t) {off : Nat} (hu : readWritten off s = true) :
    readValue off s = readValue off t := by
  unfold readWritten at hu
  unfold readValue
  cases hreg : regAt off <;> simp only [hreg] at hu ⊢
  case status => rw [h.busy, h.status]
  case keylen => rw [h.regs.keylen]
  case blklen => rw [h.regs.blklen]
  case opw => exact h.regs.opw hu
  case key k => exact h.regs.key k hu
  case din k => exact h.regs.din k hu
  case result => exact h.engineValue_eq off fun hp => h.result (by simpa [hp] using hu)
  case state c => exact h.engineValue_eq off fun hp => by rw [h.grid (by simpa [hp] using hu)]
  case sched i => exact h.engineValue_eq off fun hp => h.sched i (by simpa [hp] using hu)

theorem hostRead (h : s.Agree t) {off : Nat} (hu : (!s.rstN || readWritten off s) = true) :
    (Machine.hostRead off s).Agree (Machine.hostRead off t) := by
  have hvalue : (if s.rstN then readValue off s else 0) = if t.rstN then readValue off t else 0 := by
    rw [← h.rstN]
    split
    next hr => rw [h.readValue_eq (by simpa [hr] using hu)]
    next => rfl
  rw [Machine.hostRead, Machine.hostRead, hvalue]
  exact h.withBusRdata _

theorem issue (h : s.Agree t) (v : Word) : (Machine.issue v s).Agree (Machine.issue v t) := by
  have hcheck := h.regs.check_eq v s.status.keyValid s.status.nr
  have hstart := h.mapStatus fun st =>
    if check v s.status.keyValid s.status.nr s.regs = .ok ∧ isCipherWord v = true then
      statusStart (dirOfWord v) st else st
  refine { hstart with busy := rfl, status := ?_, pending := fun p q hp hq => ?_ }
  · rw [issue_status, issue_status, ← h.status, ← hcheck]
  · rw [issue_pending] at hp hq
    cases hp
    cases hq
    exact ⟨rfl, by rw [← h.status, ← hcheck], h.regs⟩

theorem writeCmd (h : s.Agree t) (v : Word) : (Machine.writeCmd v s).Agree (Machine.writeCmd v t) := by
  rw [Machine.writeCmd, Machine.writeCmd, ← h.busy]
  split
  · exact h.mapStatus fun st => { st with ovr := true }
  · exact h.issue v

theorem hostWrite (h : s.Agree t) (off : Nat) (v : Word) :
    (Machine.hostWrite off v s).Agree (Machine.hostWrite off v t) := by
  rw [Machine.hostWrite, Machine.hostWrite, ← h.rstN]
  split
  · cases regAt off with
    | cmd => exact h.writeCmd v
    | status => exact h.mapStatus (statusWrite v)
    | keylen | blklen | opw | key | din => exact h.withRegs (h.regs.writeInput _ v)
    | result | state | sched | reserved => exact h
  · exact h

theorem setRst (h : s.Agree t) (level : Bool) : (Machine.setRst level s).Agree (Machine.setRst level t) := by
  cases level with
  | true => exact h.withRstN true
  | false =>
    rw [Machine.setRst, Machine.setRst, ← h.busRdata, ← h.events, ← h.epoch]
    exact ⟨rfl, .refl _, rfl, rfl, fun p q hp => by simp [State.reset] at hp, rfl, fun _ => rfl, fun _ => rfl,
      fun _ _ => rfl, rfl, rfl, rfl⟩

end State.Agree

/-- An access stops, or goes through, whatever the state (R61, R65). -/
theorem busAccess_agree {off width : Nat} {f : State → State} {s t : State} (h : (f s).Agree (f t)) :
    OutcomesAgree (busAccess off width f s) (busAccess off width f t) := by
  unfold busAccess
  split
  · rfl
  · split
    · rfl
    · exact h

/-! ### The statement -/

/-- Settles O52: both states take the same event, and every event takes states that agree to states that do. -/
theorem unwrittenDataNeverMatters : Obligations.UnwrittenDataNeverMatters := by
  intro s t h hu
  unfold stepUsesWritten at hu
  unfold step
  rw [← h.events]
  cases he : s.events with
  | nil =>
    rw [he] at hu
    exact h.engineStep hu
  | cons e es =>
    rw [he] at hu
    have hs : (s.advance es s.epoch).Agree (t.advance es t.epoch) := h.epoch ▸ h.advance es s.epoch
    cases e with
    | engine => exact State.Agree.engineStep hs hu
    | read off width => exact busAccess_agree (State.Agree.hostRead hs hu)
    | write off width v => exact busAccess_agree (State.Agree.hostWrite hs off v).tick
    | rst level => exact State.Agree.setRst hs.tick level

end Sys2Proof.Machine
end

section
/-! PROOFS. Which command a step must have run when it changed the key, the schedule, RESULT, the grid or the
sequencer's position: what a command's step keeps, and then the moves of a step one by one. -/

namespace Sys2Proof.Machine

/-! ### What a command's step keeps -/

/-- From `s` to `t` RESULT, W and the key fields of STATUS stay. -/
structure KeepsKeyAndResult (s t : State) : Prop where
  result : t.result = s.result
  sched : t.sched = s.sched
  keyValid : t.status.keyValid = s.status.keyValid
  nk : t.status.nk = s.status.nk
  nr : t.status.nr = s.status.nr

theorem sequencerStep_keepsKeyAndResult (p : Pending) (s : State) :
    KeepsKeyAndResult s (sequencerStep p s) := by
  unfold sequencerStep
  split <;> exact ⟨rfl, rfl, rfl, rfl, rfl⟩

theorem sequencerStep_ports (p : Pending) (s : State) :
    (sequencerStep p s).busRdata = s.busRdata ∧ (sequencerStep p s).events = s.events ∧
      (sequencerStep p s).epoch = s.epoch := by
  unfold sequencerStep
  split <;> exact ⟨rfl, rfl, rfl⟩

theorem acceptedStep_ports (i : Instr) (p : Pending) (s : State) :
    (acceptedStep i p s).busRdata = s.busRdata ∧ (acceptedStep i p s).events = s.events ∧
      (acceptedStep i p s).epoch = s.epoch := by
  cases i
  case encrypt | decrypt => exact sequencerStep_ports p s
  all_goals exact ⟨rfl, rfl, rfl⟩

/-- Only KEY_EXPAND writes W (R40). -/
theorem acceptedStep_sched {i : Instr} (hi : i ≠ .keyExpand) (p : Pending) (s : State) :
    (acceptedStep i p s).sched = s.sched := by
  cases i
  case encrypt | decrypt => exact (sequencerStep_keepsKeyAndResult p s).sched
  case keyExpand => exact absurd rfl hi
  all_goals rfl

/-- KEY_EXPAND and KEY_CLEAR alone set the key fields (R33). -/
theorem acceptedStep_keyFields {i : Instr} (hexpand : i ≠ .keyExpand) (hclear : i ≠ .keyClear)
    (p : Pending) (s : State) :
    (acceptedStep i p s).status.keyValid = s.status.keyValid ∧
      (acceptedStep i p s).status.nk = s.status.nk ∧ (acceptedStep i p s).status.nr = s.status.nr := by
  cases i
  case encrypt | decrypt =>
    obtain ⟨-, -, hvalid, hnk, hnr⟩ := sequencerStep_keepsKeyAndResult p s
    exact ⟨hvalid, hnk, hnr⟩
  case keyExpand => exact absurd rfl hexpand
  case keyClear => exact absurd rfl hclear
  all_goals exact ⟨rfl, rfl, rfl⟩

/-- Settles O39: a command's step holds, fails or is the accepted command's, and none of these writes there. -/
theorem engineLeavesTheHostsRegisters : Obligations.EngineLeavesTheHostsRegisters := by
  intro i s t h
  obtain ⟨hrst, hregs⟩ := exec_frame h
  refine ⟨hregs, hrst, ?_⟩
  rw [exec_eq] at h
  cases h
  cases hp : s.pending with
  | none => exact ⟨rfl, rfl, rfl⟩
  | some p =>
    simp only
    split
    · exact acceptedStep_ports i p s
    · obtain ⟨-, -, -, -, -, -, -, hports⟩ := fail_frame s p.cmd p.verdict
      exact hports

/-! ### The data of the engine -/

/-- A step other than a reset runs an accepted command, or leaves RESULT, the grid and W (R27, R39, R40). -/
theorem step_accepted_or_keeps_data {s t : State} (h : step s = .next t)
    (hreset : ∀ es, s.events ≠ .rst false :: es) :
    (∃ es n i p, Accepted i s p ∧ t = acceptedStep i p (s.advance es n)) ∨
      t.result = s.result ∧ t.grid = s.grid ∧ t.sched = s.sched := by
  cases step_move h with
  | accepted es n i p hr ha ht => exact .inl ⟨es, n, i, p, ha, ht⟩
  | failed es n p hr hp hc ht =>
    obtain ⟨-, -, hresult, hgrid, hsched, -⟩ := fail_frame (s.advance es n) p.cmd (completionCode p)
    exact .inr (ht ▸ ⟨hresult, hgrid, hsched⟩)
  | issued es n v hr hp ht => exact .inr (ht ▸ ⟨rfl, rfl, rfl⟩)
  | flags es n err ovr hr ht => exact .inr (ht ▸ ⟨rfl, rfl, rfl⟩)
  | ports es n regs rst rdata hheld ht => exact .inr (ht ▸ ⟨rfl, rfl, rfl⟩)
  | reset es n he => exact absurd he (hreset es)

/-- Settles O45: only the step of an accepted KEY_EXPAND moves W, and it writes the words below 4·(NR+1). -/
theorem onlyKeyExpandWritesTheSchedule : Obligations.OnlyKeyExpandWritesTheSchedule := by
  intro s t h hreset hne
  obtain ⟨es, n, i, p, ha, rfl⟩ | ⟨-, -, hsched⟩ := step_accepted_or_keeps_data h hreset
  case inr => exact absurd hsched hne
  case inl =>
    by_cases hi : i = .keyExpand
    case neg => exact absurd (acceptedStep_sched hi p _) hne
    case pos =>
      subst hi
      refine ⟨p, ha, fun hlen k hk => ?_⟩
      have hbeyond : ¬ k.val < 4 * (nrOfNk (nkOfLen p.snap.keylen) + 1) := by
        rw [← keyExpandEffect_nr_toNat hlen (s.advance es n)]
        exact Nat.not_lt.2 hk
      exact (keyExpandEffect_sched_getElem p.snap (s.advance es n) k).trans (if_neg hbeyond)

/-- Settles O46: every other command's step keeps RESULT, or the grid, by the command's effect. -/
theorem onlyTheirCommandsWriteResultAndGrid : Obligations.OnlyTheirCommandsWriteResultAndGrid := by
  intro s t h hreset
  obtain ⟨es, n, i, p, ha, rfl⟩ | ⟨hresult, hgrid, -⟩ := step_accepted_or_keeps_data h hreset
  case inr => exact ⟨fun hne => absurd hresult hne, fun hne => absurd hgrid hne⟩
  case inl =>
    refine ⟨fun hne => ⟨p, i, ha, ?result⟩, fun hne => ⟨p, i, ha, ?grid⟩⟩
    case result =>
      cases i with
      | gfAdd | gfXtime | gfMul | sbox | invSbox | rotWord | subWord | rcon => simp
      | encrypt | decrypt =>
        exact absurd (sequencerStep_keepsKeyAndResult p (s.advance es n)).result hne
      | _ => exact absurd rfl hne
    case grid =>
      cases i with
      | loadState | subBytes | invSubBytes | shiftRows | invShiftRows | mixColumns | invMixColumns
      | addRoundKey | encrypt | decrypt => simp
      | _ => exact absurd rfl hne

/-! ### The key fields -/

/-- A failure moves the key fields only with INVALID_KEY_LENGTH, and then clears them (R276). -/
theorem fail_keyFields (s : State) (cmd : Word) (e : ErrCode) :
    (e = .invalidKeyLength ∧ (s.fail cmd e).status.keyValid = false) ∨
      (s.fail cmd e).status.keyValid = s.status.keyValid ∧ (s.fail cmd e).status.nk = s.status.nk ∧
        (s.fail cmd e).status.nr = s.status.nr := by
  by_cases he : e = .invalidKeyLength
  · subst he
    exact .inl ⟨rfl, by rw [fail_invalidKeyLength]; rfl⟩
  · rw [State.fail, if_neg he]
    exact .inr ⟨rfl, rfl, rfl⟩

/-- The issue of a command leaves the key fields (R110). -/
theorem issue_keyFields (v : Word) (s : State) :
    (issue v s).status.keyValid = s.status.keyValid ∧ (issue v s).status.nk = s.status.nk ∧
      (issue v s).status.nr = s.status.nr := by
  rw [issue_status]
  split <;> exact ⟨rfl, rfl, rfl⟩

/-- Under the invariant INVALID_KEY_LENGTH is the verdict of a KEY_EXPAND (R275, R276). -/
theorem decode_of_invalidKeyLength {s : State} {p : Pending} (hi : Inv s) (hp : s.pending = some p)
    (hv : p.verdict = .invalidKeyLength) : decode p.cmd = .ok .keyExpand := by
  obtain ⟨-, hlen, -⟩ :=
    verdictIsTheFirstApplicableError p.cmd s.status.keyValid s.status.nr p.snap
  obtain ⟨hd, -⟩ := hlen.1 ((hi.verdict p hp).symm.trans hv)
  exact hd

/-- Settles O44: the effects of KEY_EXPAND and KEY_CLEAR and the failure of KEY_EXPAND are the moves that set these
fields. -/
theorem keyFieldsChangeOnlyByKeyCommands : Obligations.KeyFieldsChangeOnlyByKeyCommands := by
  intro s t hi h hreset hne
  have hkept (hvalid : t.status.keyValid = s.status.keyValid) (hnk : t.status.nk = s.status.nk)
      (hnr : t.status.nr = s.status.nr) : False := by simp [hvalid, hnk, hnr] at hne
  cases step_move h with
  | accepted es n i p hr ha ht =>
    subst ht
    obtain ⟨⟨hp, hd⟩, hv⟩ := ha
    by_cases hexpand : i = .keyExpand
    · subst hexpand
      exact ⟨p, hp, rfl, .inl ⟨hd, hv, rfl⟩⟩
    by_cases hclear : i = .keyClear
    · subst hclear
      exact ⟨p, hp, rfl, .inr (.inr ⟨hd, rfl⟩)⟩
    obtain ⟨hvalid, hnk, hnr⟩ := acceptedStep_keyFields hexpand hclear p (s.advance es n)
    exact (hkept hvalid hnk hnr).elim
  | failed es n p hr hp hc ht =>
    subst ht
    rw [completionCode_eq_verdict hi hp] at hkept ⊢
    obtain ⟨-, -, -, -, -, hnone, -⟩ := fail_frame (s.advance es n) p.cmd p.verdict
    obtain ⟨hv, hcleared⟩ | ⟨hvalid, hnk, hnr⟩ := fail_keyFields (s.advance es n) p.cmd p.verdict
    · exact ⟨p, hp, hnone, .inr (.inl ⟨decode_of_invalidKeyLength hi hp hv, hv, hcleared⟩)⟩
    · exact (hkept hvalid hnk hnr).elim
  | issued es n v hr hp ht =>
    obtain ⟨hvalid, hnk, hnr⟩ := ht ▸ issue_keyFields v (s.advance es n)
    exact (hkept hvalid hnk hnr).elim
  | flags es n err ovr hr ht => exact (hkept (ht ▸ rfl) (ht ▸ rfl) (ht ▸ rfl)).elim
  | ports es n regs rst rdata hheld ht => exact (hkept (ht ▸ rfl) (ht ▸ rfl) (ht ▸ rfl)).elim
  | reset es n he => exact absurd he (hreset es)

/-! ### The sequencer's transitions -/

/-- At rest FSM is IDLE or DONE. -/
theorem RestingPosition.fsm {st : Status} (h : RestingPosition st) : st.fsm = .idle ∨ st.fsm = .done :=
  h.imp And.left And.left

/-- While it runs FSM is INITIAL, ROUND or FINAL. -/
theorem RunningPosition.fsm {st : Status} (h : RunningPosition st) :
    st.fsm = .initial ∨ st.fsm = .round ∨ st.fsm = .final :=
  h.imp And.left (Or.imp And.left And.left)

theorem SequencerMove.of_eq {a b : Status} (hfsm : b.fsm = a.fsm) (hround : b.round = a.round) :
    SequencerMove a b :=
  .inl ⟨hfsm.symm, hround.symm⟩

/-- Every completion that puts the sequencer in IDLE finds it at rest. -/
theorem SequencerMove.of_idle {a b : Status} (ha : RestingPosition a) (hfsm : b.fsm = .idle)
    (hround : b.round = 0) : SequencerMove a b :=
  .inr (.inr (.inr (.inr (.inr (.inr ⟨ha.fsm, hfsm, hround⟩)))))

/-- The sequencer's step moves it from each running position to the next (R244 to R246). -/
theorem sequencerStep_move {s : State} {p : Pending} (hpos : RunningPosition s.status)
    (hword : isCipherWord p.cmd = true) : SequencerMove s.status (sequencerStep p s).status := by
  obtain ⟨hfsm, -⟩ | ⟨hfsm, -, hround⟩ | ⟨hfsm, -⟩ := hpos
  · rw [sequencerStep_of_initial p hfsm]
    exact .inr (.inr (.inl ⟨hfsm, rfl, rfl⟩))
  · rw [sequencerStep_of_round p hfsm]
    by_cases hmore : s.status.round.toNat < s.status.nr.toNat - 1
    · exact .inr (.inr (.inr (.inl ⟨hfsm, by simp [roundStep, hmore], by omega, by simp [roundStep, hmore]⟩)))
    · exact .inr (.inr (.inr (.inr (.inl
        ⟨hfsm, by simp [roundStep, hmore], by omega, by simp [roundStep, hmore]⟩))))
  · rw [sequencerStep_of_final p hfsm, finalStep_eq s hword]
    exact .inr (.inr (.inr (.inr (.inr (.inl ⟨hfsm, rfl, rfl⟩)))))

/-- A command that is to fail is no running ENCRYPT or DECRYPT. -/
theorem cipherRunning_of_completionCode_ne_ok {s : State} {p : Pending} (hi : Inv s)
    (hp : s.pending = some p) (hc : completionCode p ≠ .ok) : cipherRunning s = false := by
  rw [completionCode_eq_verdict hi hp] at hc
  simp [cipherRunning_eq hp, hc]

theorem cipherRunning_of_not_cipher {i : Instr} {s : State} {p : Pending} (ha : Accepted i s p)
    (hc : ¬(i = .encrypt ∨ i = .decrypt)) : cipherRunning s = false := by
  rw [← isCipherWord_of_decode ha.1.2] at hc
  simp [cipherRunning_eq ha.1.1, hc]

/-- Settles O29: a completion finds the sequencer at rest, but for that of its own final step; an issue too; and
while the sequencer runs no other command is there to set NR. -/
theorem sequencerTransitionsAreTheListedOnes : Obligations.SequencerTransitionsAreTheListedOnes := by
  intro s t hi h hreset
  suffices hmove : SequencerMove s.status t.status ∧ (cipherRunning s = true → t.status.nr = s.status.nr) from
    ⟨hmove.1, fun hc => ⟨(hi.running hc).1.fsm, hmove.2 hc⟩⟩
  cases step_move h with
  | accepted es n i p hr ha ht =>
    subst ht
    by_cases hcipher : i = .encrypt ∨ i = .decrypt
    case pos =>
      have hpos := (hi.running (cipherRunning_of_accepted ha hcipher)).1
      have hword := ha.isCipherWord_cmd hcipher
      have hmove : SequencerMove s.status (sequencerStep p (s.advance es n)).status :=
        sequencerStep_move (s := s.advance es n) hpos hword
      have hnr := (sequencerStep_keepsKeyAndResult p (s.advance es n)).nr
      obtain rfl | rfl := hcipher <;> exact ⟨hmove, fun _ => hnr⟩
    case neg =>
      have hrest := cipherRunning_of_not_cipher ha hcipher
      rw [acceptedStep_eq_afterSuccess ha hcipher]
      exact ⟨.of_idle (hi.resting hrest) rfl rfl, fun hc => by simp [hrest] at hc⟩
  | failed es n p hr hp hc ht =>
    have hrest := cipherRunning_of_completionCode_ne_ok hi hp hc
    rw [ht, fail_error _ _ hc]
    exact ⟨.of_idle (hi.resting hrest) rfl rfl, fun hc => by simp [hrest] at hc⟩
  | issued es n v hr hp ht =>
    have hrest : cipherRunning s = false := by simp [cipherRunning, hp]
    refine ⟨?_, fun hc => by simp [hrest] at hc⟩
    rw [ht, issue_status]
    split
    · exact .inr (.inl ⟨(hi.resting hrest).fsm, rfl, rfl⟩)
    · exact .of_eq rfl rfl
  | flags es n err ovr hr ht =>
    rw [ht]
    exact ⟨.of_eq rfl rfl, fun _ => rfl⟩
  | ports es n regs rst rdata hheld ht =>
    rw [ht]
    exact ⟨.of_eq rfl rfl, fun _ => rfl⟩
  | reset es n he => exact absurd he (hreset es)

end Sys2Proof.Machine
end

section
/-! PROOFS. Whole ENCRYPT and DECRYPT commands (45_cipher_engine.md): the two functions undo each other, the sequencer
computes them, and the single-transform commands compute its rounds. -/

namespace Sys2Proof.Machine

/-! ### Decipher against Cipher -/

@[simp] theorem words_loadBlock (din : Vector Word 4) : (loadBlock din).words = din :=
  Vector.ext fun i hi =>
    (Grid.getElem_words (loadBlock din) ⟨i, hi⟩).trans (loadBlock_stateWord din ⟨i, hi⟩)

/-- After r rounds of decryption the grid is that of encryption on the way into round NR - r, before its
MixColumns (R241, R242). -/
theorem decAfter_words_cipher (w : Vector Word 60) (nr : Nat) (din : Vector Word 4) {r : Nat}
    (hr : r ≤ nr - 1) :
    decAfter w nr (cipher w nr din).words r = shiftRows (subBytes (encAfter w din (nr - 1 - r))) := by
  induction r with
  | zero => simp [decAfter, decInitial, cipher, encFinal]
  | succ r ih =>
    have hround : nr - 1 - r = nr - 1 - (r + 1) + 1 := by omega
    have hslice : nr - (r + 1) = nr - 1 - (r + 1) + 1 := by omega
    rw [decAfter, ih (by omega), hround, encAfter, decRound, encRound, hslice, invShiftRows_shiftRows,
      invSubBytes_subBytes, addRoundKey_addRoundKey, invMixColumns_mixColumns]

/-- After r rounds of encryption the grid is that of decryption in round NR - r, before its AddRoundKey. -/
theorem encAfter_words_decipher (w : Vector Word 60) (nr : Nat) (din : Vector Word 4) {r : Nat}
    (hr : r ≤ nr - 1) :
    encAfter w (decipher w nr din).words r =
      invSubBytes (invShiftRows (decAfter w nr din (nr - 1 - r))) := by
  induction r with
  | zero => simp [encAfter, encInitial, decipher, decFinal]
  | succ r ih =>
    have hround : nr - 1 - r = nr - 1 - (r + 1) + 1 := by omega
    have hslice : nr - (nr - 1 - (r + 1) + 1) = r + 1 := by omega
    rw [encAfter, ih (by omega), hround, decAfter, encRound, decRound, hslice, subBytes_invSubBytes,
      shiftRows_invShiftRows, mixColumns_invMixColumns, addRoundKey_addRoundKey]

/-- Settles O58: the rounds cancel one by one, and then the initial and the final step. -/
theorem decryptionInvertsEncryption : Obligations.DecryptionInvertsEncryption := by
  intro w nr din
  constructor
  · rw [decipher, decAfter_words_cipher w nr din le_rfl]
    simp [decFinal, encAfter, encInitial]
  · rw [cipher, encAfter_words_decipher w nr din le_rfl]
    simp [encFinal, decAfter, decInitial]

/-! ### The sequencer against Cipher and Decipher -/

/-- The grid after the initial step and r rounds over block `din` in the direction DIR. -/
def gridAfter (s : State) (din : Vector Word 4) (r : Nat) : Grid :=
  if s.status.dir = .encrypt then encAfter s.sched din r else decAfter s.sched s.status.nr.toNat din r

/-- `s` after the last of `n` sequencer steps over block `din`: Cipher or Decipher in the grid, and the command
completed. -/
def cipherDone (s : State) (din : Vector Word 4) (n : Nat) : State :=
  { s with
    grid := if s.status.dir = .encrypt then cipher s.sched s.status.nr.toNat din
      else decipher s.sched s.status.nr.toNat din
    written := { s.written with grid := true }
    pending := none
    status := { s.status with errcode := .ok, fsm := .done, round := s.status.nr }
    epoch := s.epoch + n }

/-- A first sequencer step changes nothing that `cipherDone` does not set. -/
theorem cipherDone_initialStep (p : Pending) (s : State) (din : Vector Word 4) (n : Nat) :
    cipherDone (initialStep p s.tick) din n = cipherDone s din (n + 1) := by
  have hepoch : s.epoch + 1 + n = s.epoch + (n + 1) := by omega
  rw [initialStep_eq, cipherDone, cipherDone, ← hepoch]
  rfl

/-- Nor does a round. -/
theorem cipherDone_roundStep (s : State) (din : Vector Word 4) (n : Nat) :
    cipherDone (roundStep s.tick) din n = cipherDone s din (n + 1) := by
  have hepoch : s.epoch + 1 + n = s.epoch + (n + 1) := by omega
  rw [roundStep_eq, cipherDone, cipherDone, ← hepoch]
  rfl

/-- A round takes the grid after r rounds to the grid after r + 1 (R245). -/
theorem roundStep_grid {s : State} {din : Vector Word 4} {r : Nat} (hround : s.status.round.toNat = r + 1)
    (hgrid : s.grid = gridAfter s din r) :
    (roundStep s.tick).grid = gridAfter (roundStep s.tick) din (r + 1) := by
  have hnext : gridAfter (roundStep s.tick) din (r + 1) = gridAfter s din (r + 1) := rfl
  rw [hnext, roundStep_eq, gridAfter]
  simp only [State.tick_status, State.tick_sched, State.tick_grid, hround, hgrid, gridAfter]
  split <;> rfl

/-- The final step takes the grid after NR - 1 rounds to Cipher or Decipher (R246). -/
theorem finalStep_eq_cipherDone {s : State} {p : Pending} {din : Vector Word 4}
    (hword : isCipherWord p.cmd = true) (hround : s.status.round = s.status.nr)
    (hwritten : s.written.grid = true) (hgrid : s.grid = gridAfter s din (s.status.nr.toNat - 1)) :
    finalStep p s.tick = cipherDone s din 1 := by
  have hmark : s.written = { s.written with grid := true } := by rw [← hwritten]
  have hlast : (if s.status.dir = .encrypt then encFinal s.sched s.status.nr.toNat s.grid
      else decFinal s.sched s.grid) =
      if s.status.dir = .encrypt then cipher s.sched s.status.nr.toNat din
      else decipher s.sched s.status.nr.toNat din := by
    rw [hgrid, gridAfter]
    split <;> rfl
  have hdone : { s.status with errcode := .ok, fsm := .done, round := s.status.nr } =
      { s.status with errcode := .ok, fsm := .done } := by rw [← hround]
  rw [finalStep_eq _ hword, cipherDone, ← hmark, ← hlast, hdone]
  rfl

namespace SequencerTurn

variable {i : Instr} {p : Pending} {s : State}

/-- From FINAL one step is left (R246). -/
theorem run_final (h : SequencerTurn i p s) (hf : s.status.fsm = .final)
    (hround : s.status.round = s.status.nr) (hwritten : s.written.grid = true)
    (hgrid : s.grid = gridAfter s p.snap.din (s.status.nr.toNat - 1)) :
    Host.Core.run core 1 s = .next (cipherDone s p.snap.din 1) := by
  have hstep : step s = .next (cipherDone s p.snap.din 1) := by
    rw [h.step_eq, sequencerStep_of_final p (by exact hf),
      finalStep_eq_cipherDone (h.accepted.isCipherWord_cmd h.cipher) hround hwritten hgrid]
  exact run_succ (M := core) hstep 0

/-- From round r + 1 on there are `d + 1` rounds and the final step (R245, R246). -/
theorem run_round {d r : Nat} (h : SequencerTurn i p s) (hf : s.status.fsm = .round)
    (hround : s.status.round.toNat = r + 1) (hd : r + 1 + (d + 1) = s.status.nr.toNat)
    (hwritten : s.written.grid = true) (hgrid : s.grid = gridAfter s p.snap.din r) :
    Host.Core.run core (d + 2) s = .next (cipherDone s p.snap.din (d + 2)) := by
  induction d generalizing s r with
  | zero =>
    obtain ⟨hstep, hnext⟩ := h.step_round hf
    have hmax : ¬ s.status.round.toNat < s.status.nr.toNat - 1 := by omega
    obtain ⟨hf', hround'⟩ := roundStep_position_of_last (s := s.tick) hmax
    have hlast : (roundStep s.tick).status.nr.toNat - 1 = r + 1 := by
      rw [show (roundStep s.tick).status.nr = s.status.nr from rfl, ← hd]
      rfl
    rw [run_succ (M := core) hstep, ← cipherDone_roundStep]
    exact hnext.run_final hf' hround' hwritten (hlast ▸ roundStep_grid hround hgrid)
  | succ d ih =>
    obtain ⟨hstep, hnext⟩ := h.step_round hf
    have hmore : s.status.round.toNat < s.status.nr.toNat - 1 := by omega
    obtain ⟨hf', hround'⟩ := roundStep_position_of_lt (s := s.tick) hmore
    rw [run_succ (M := core) hstep, ← cipherDone_roundStep]
    exact ih hnext hf' (by rw [hround', ← hround]; rfl) (show _ = s.status.nr.toNat by omega) hwritten
      (roundStep_grid hround hgrid)

/-- From INITIAL on there are the initial step, NR - 1 rounds and the final step (R244). -/
theorem run_initial (h : SequencerTurn i p s) (hf : s.status.fsm = .initial) (hnr : 2 ≤ s.status.nr.toNat) :
    Host.Core.run core (s.status.nr.toNat + 1) s =
      .next (cipherDone s p.snap.din (s.status.nr.toNat + 1)) := by
  obtain ⟨hstep, hnext⟩ := h.step_initial hf
  obtain ⟨d, hd⟩ := Nat.exists_eq_add_of_le' hnr
  have hgrid : (initialStep p s.tick).grid = gridAfter (initialStep p s.tick) p.snap.din 0 := by
    rw [initialStep_eq]
    rfl
  rw [run_succ (M := core) hstep, ← cipherDone_initialStep, hd]
  exact hnext.run_round rfl rfl (show _ = s.status.nr.toNat by omega) rfl hgrid

end SequencerTurn

/-- The direction of a running ENCRYPT or DECRYPT is its command's (R243). -/
theorem dir_eq_encrypt_iff {i : Instr} {s : State} {p : Pending} (hi : Inv s) (ha : Accepted i s p)
    (hc : i = .encrypt ∨ i = .decrypt) : s.status.dir = .encrypt ↔ i = .encrypt := by
  obtain ⟨-, hdir⟩ := hi.running (cipherRunning_of_accepted ha hc)
  rw [hdir p ha.1.1, dirOfWord, opcField_of_decode ha.1.2]
  obtain rfl | rfl := hc <;> decide

/-- Settles O27, by the steps of the sequencer from INITIAL on, each of which takes the grid one step further along
Cipher or Decipher. -/
theorem sequencerComputesTheCipher : Obligations.SequencerComputesTheCipher := by
  intro i s p hc hi hr he ha hf
  have hturn : SequencerTurn i p s := ⟨hr, he, ha, hc⟩
  have hnr : 2 ≤ s.status.nr.toNat := two_le_nr hi (keyValid_of_accepted_cipher hi ha hc)
  obtain ⟨hbusy, -⟩ := (hturn.completesIn_initial hf hnr).run
  refine ⟨fun k hk => hbusy k (Nat.lt_succ_of_le hk), ?_⟩
  simp only [← dir_eq_encrypt_iff hi ha hc]
  exact hturn.run_initial hf hnr

/-! ### A round from single commands -/

/-- Between two commands: nothing in flight, a valid key of NR rounds and its schedule, the grid, and the events
to come. -/
structure BetweenCommands (sched : Vector Word 60) (nr : BitVec 4) (g : Grid) (es : List Event) (s : State) :
    Prop where
  rstN : s.rstN = true
  pending : s.pending = none
  keyValid : s.status.keyValid = true
  nr : s.status.nr = nr
  sched : s.sched = sched
  grid : s.grid = g
  events : s.events = es

/-- The word `w` is a command `i` that no check fails with a valid key of NR rounds, and its effect is the
transform `f` of the grid. -/
structure IsTransform (sched : Vector Word 60) (nr : BitVec 4) (w : Word) (i : Instr) (f : Grid → Grid) :
    Prop where
  decodes : decode w = .ok i
  check : ∀ snap, checkInstr i true nr snap = .ok
  effect : ∀ p s, s.sched = sched → effectOf i p s = s.mapGrid f
  single : ¬(i = .encrypt ∨ i = .decrypt)

section
variable {sched : Vector Word 60} {nr : BitVec 4} {g : Grid} {es : List Event} {s : State}

/-- Completion leaves nothing in flight, and the transform changes the grid alone. -/
theorem betweenCommands_afterSuccess (f : Grid → Grid) (hr : s.rstN = true) (hkey : s.status.keyValid = true)
    (hnr : s.status.nr = nr) (hsched : s.sched = sched) (hgrid : s.grid = g) (he : s.events = es) :
    BetweenCommands sched nr (f g) es (afterSuccess (s.mapGrid f)) :=
  ⟨hr, rfl, hkey, hnr, hsched, congrArg f hgrid, he⟩

theorem run_two {s u t : State} (h : step s = .next u) (h' : step u = .next t) (k : Nat) :
    Host.Core.run core (k + 2) s = Host.Core.run core k t :=
  (run_succ (M := core) h (k + 1)).trans (run_succ (M := core) h' k)

/-- Issuing and running the command of a transform takes two steps, and transforms the grid (R114, R289). -/
theorem BetweenCommands.run_transform {i : Instr} {f : Grid → Grid} {w : Word}
    (h : BetweenCommands sched nr g (.write 0 32 w :: .engine :: es) s)
    (hi : IsTransform sched nr w i f) :
    ∃ t : State, (∀ k, Host.Core.run core (k + 2) s = Host.Core.run core k t) ∧
      BetweenCommands sched nr (f g) es t ∧ t.status.errcode = .ok := by
  obtain ⟨hr, hp, hkey, hnr, hsched, hgrid, he⟩ := h
  have hd := hi.decodes
  have hissue : step s = .next (issue w { s with events := .engine :: es }).tick := by
    rw [step_cmdWrite hr he, writeCmd_idle (by exact hp)]
  have hverdict : Machine.check w s.status.keyValid s.status.nr s.regs = .ok := by
    simp [Machine.check, hd, hkey, hnr, hi.check]
  have ha : Accepted i (issue w { s with events := es }).tick ⟨w, .ok, s.regs⟩ :=
    ⟨⟨by rw [← hverdict]; rfl, hd⟩, rfl⟩
  have hrun : step (issue w { s with events := .engine :: es }).tick =
      .next (afterSuccess ((issue w { s with events := es }).tick.tick.mapGrid f)) := by
    rw [step_engine rfl]
    refine (engineStep_accepted (by exact hr) ha).trans ?_
    rw [acceptedStep_eq_afterSuccess ha hi.single, hi.effect _ _ (by exact hsched)]
  obtain ⟨hvalid', -, hnr'⟩ := issue_keyFields w { s with events := es }
  exact ⟨_, run_two hissue hrun,
    betweenCommands_afterSuccess f hr (hvalid'.trans hkey) (hnr'.trans hnr) hsched hgrid rfl, rfl⟩

/-- The four commands of a round, issued and run one after the other. -/
theorem BetweenCommands.run_four {i₁ i₂ i₃ i₄ : Instr} {f₁ f₂ f₃ f₄ : Grid → Grid} {w₁ w₂ w₃ w₄ : Word}
    (h : BetweenCommands sched nr g [.write 0 32 w₁, .engine, .write 0 32 w₂, .engine, .write 0 32 w₃,
      .engine, .write 0 32 w₄, .engine] s)
    (hi₁ : IsTransform sched nr w₁ i₁ f₁) (hi₂ : IsTransform sched nr w₂ i₂ f₂)
    (hi₃ : IsTransform sched nr w₃ i₃ f₃) (hi₄ : IsTransform sched nr w₄ i₄ f₄) :
    ∃ t : State, Host.Core.run core 8 s = .next t ∧ t.grid = f₄ (f₃ (f₂ (f₁ g))) ∧
      t.status.errcode = .ok ∧ t.busy = false := by
  obtain ⟨t₁, hrun₁, h₁, -⟩ := h.run_transform hi₁
  obtain ⟨t₂, hrun₂, h₂, -⟩ := h₁.run_transform hi₂
  obtain ⟨t₃, hrun₃, h₃, -⟩ := h₂.run_transform hi₃
  obtain ⟨t₄, hrun₄, h₄, hcode⟩ := h₃.run_transform hi₄
  refine ⟨t₄, ?_, h₄.grid, hcode, by rw [State.busy, h₄.pending]; rfl⟩
  rw [hrun₁ 6, hrun₂ 4, hrun₃ 2, hrun₄ 0]
  rfl

/-- ADD_ROUND_KEY passes its check when the slice lies in the schedule (R275). -/
theorem isTransform_addRoundKey {off : Nat} (hoff : off + 4 ≤ 4 * (nr.toNat + 1)) :
    IsTransform sched nr (encode (.addRoundKey off)) (.addRoundKey off) (fun g => addRoundKey sched g off) where
  decodes := by
    have hnr := nr.isLt
    exact decodeOfEncodeIsTheCommand _ (by simp [Instr.wellFormed]; omega)
  check snap := by simp [checkInstr, hoff]
  effect p s hs := by rw [← hs]; rfl
  single := by simp

end

/-- Settles O60: each of the four commands is accepted and transforms the grid, and the composition of the four is
the sequencer's round. -/
theorem singleTransformsComputeARound : Obligations.SingleTransformsComputeARound := by
  intro s r hi hr hp hkey hone hlast
  have hbegin (es : List Event) (he : s.events = es) : BetweenCommands s.sched s.status.nr s.grid es s :=
    ⟨hr, hp, hkey, rfl, rfl, rfl, he⟩
  refine ⟨fun he => ?forward, fun he => ?inverse⟩
  case forward =>
    exact (hbegin _ he).run_four (i₁ := .subBytes) (i₂ := .shiftRows) (i₃ := .mixColumns)
      ⟨by decide, fun _ => rfl, fun _ _ _ => rfl, by simp⟩ ⟨by decide, fun _ => rfl, fun _ _ _ => rfl, by simp⟩
      ⟨by decide, fun _ => rfl, fun _ _ _ => rfl, by simp⟩ (isTransform_addRoundKey (by omega))
  case inverse =>
    exact (hbegin _ he).run_four (i₁ := .invShiftRows) (i₂ := .invSubBytes) (i₄ := .invMixColumns)
      ⟨by decide, fun _ => rfl, fun _ _ _ => rfl, by simp⟩ ⟨by decide, fun _ => rfl, fun _ _ _ => rfl, by simp⟩
      (isTransform_addRoundKey (by omega)) ⟨by decide, fun _ => rfl, fun _ _ _ => rfl, by simp⟩

end Sys2Proof.Machine
end

section
/-! PROOFS. The host's side (20_memory.md, 10_state.md): the register at every offset of the window, what it reads as,
what a write to it leaves in every other register, and the reset pin (70_reset_and_hazards.md). -/

namespace Sys2Proof.Machine

/-! ### The register map -/

/-- Every register stands at its offset (R62). -/
theorem regAt_regOffset (r : Reg) : regAt (regOffset r) = r := by
  have hkey : ∀ k : Fin 8, regAt (regOffset (.key k)) = .key k := by decide
  have hdin : ∀ k : Fin 4, regAt (regOffset (.din k)) = .din k := by decide
  have hstate : ∀ c : Fin 4, regAt (regOffset (.state c)) = .state c := by decide
  have hsched : ∀ i : Fin 60, regAt (regOffset (.sched i)) = .sched i := by decide
  cases r with
  | key k => exact hkey k
  | din k => exact hdin k
  | state c => exact hstate c
  | sched i => exact hsched i
  | _ => rfl

/-- The 128 words of the window, one by one: those that are not reserved stand at their register's offset. -/
theorem regOffset_regAt_word :
    ∀ k : Fin 128, regAt (4 * k.val) ≠ .reserved → regOffset (regAt (4 * k.val)) = 4 * k.val := by decide

/-- An aligned offset of the window that is not reserved is its register's (R62). -/
theorem regOffset_regAt {off : Nat} (h4 : off % 4 = 0) (hlt : off < 512) (h : regAt off ≠ .reserved) :
    regOffset (regAt off) = off := by
  have hoff : 4 * (off / 4) = off := by omega
  have hword := regOffset_regAt_word ⟨off / 4, by omega⟩
  rw [hoff] at hword
  exact hword h

/-- The other offsets are CMD's and the reserved ones (R62). -/
theorem regAt_unreadable {off : Nat} (h4 : off % 4 = 0)
    (ho : off = 0x000 ∨ 0x018 ≤ off ∧ off < 0x020 ∨ 0x060 ≤ off ∧ off < 0x100 ∨ 0x1F0 ≤ off ∧ off < 0x200) :
    regAt off = .cmd ∨ regAt off = .reserved := by
  have hoff := regOffset_regAt h4 (by omega)
  cases hr : regAt off <;> simp only [hr, regOffset] at hoff
  case cmd => exact .inl rfl
  case reserved => exact .inr rfl
  all_goals
    have hoff := hoff (by simp)
    omega

/-- A register that the engine does not update while BUSY = 1 (R310). -/
def Reg.steady : Reg → Bool
  | .result | .state _ | .sched _ => false
  | _ => true

/-- All but the offsets of RESULT, STATE and SCHED name such a register. -/
theorem steady_regAt {off : Nat} (h4 : off % 4 = 0) (hlt : off < 512)
    (ho : off ≠ 0x014 ∧ ¬(0x050 ≤ off ∧ off < 0x060) ∧ ¬(0x100 ≤ off ∧ off < 0x1F0)) :
    (regAt off).steady = true := by
  have hoff := regOffset_regAt h4 hlt
  cases hr : regAt off <;> simp only [hr, regOffset] at hoff
  case result | state | sched =>
    have hoff := hoff (by simp)
    omega
  all_goals rfl

/-! ### Reads -/

/-- CMD and the reserved offsets read 0 (R63). -/
theorem readValue_eq_zero {off : Nat} (s : State) (h : regAt off = .cmd ∨ regAt off = .reserved) :
    readValue off s = 0 := by
  unfold readValue
  rcases h with h | h <;> rw [h]

theorem engineValue_idle {s : State} (hp : s.pending = none) (off : Nat) (v : Word) :
    engineValue off v s = v := by
  simp [engineValue, hp]

/-- The step that performs a host read (R63, R74). -/
theorem step_read {s : State} {off : Nat} {es : List Event} (he : s.events = .read off 32 :: es)
    (h4 : off % 4 = 0) (hlt : off < 512) : step s = .next (hostRead off { s with events := es }) := by
  unfold step
  rw [he]
  exact busAccess_ok _ _ h4 hlt

/-- Settles O30: no register's value depends on bus_rdata or on the events to come. -/
theorem hostReadHasNoSideEffect : Obligations.HostReadHasNoSideEffect := by
  intro s off es h4 hlt he hr
  have hstep : step s = .next { s with busRdata := readValue off s, events := es } := by
    rw [step_read he h4 hlt, hostRead, if_pos (by exact hr)]
    rfl
  refine ⟨hstep, fun t ht => ?_, readValue_eq_zero s⟩
  cases hstep.symm.trans ht
  rfl

/-- Settles O31: each offset is that of its register. -/
theorem readsReturnTheRegisters : Obligations.ReadsReturnTheRegisters := by
  refine ⟨fun s => rfl, fun s hp => ⟨rfl, rfl, rfl, engineValue_idle hp _ _, fun k => ?key, fun k => ?din,
    fun c => ?state, fun i => ?sched, fun off h4 ho => readValue_eq_zero s (regAt_unreadable h4 ho)⟩⟩
  case key =>
    rw [readValue, show regAt (0x020 + 4 * k.val) = .key k from regAt_regOffset (.key k)]
  case din =>
    rw [readValue, show regAt (0x040 + 4 * k.val) = .din k from regAt_regOffset (.din k)]
  case state =>
    rw [readValue, show regAt (0x050 + 4 * c.val) = .state c from regAt_regOffset (.state c)]
    exact engineValue_idle hp _ _
  case sched =>
    rw [readValue, show regAt (0x100 + 4 * i.val) = .sched i from regAt_regOffset (.sched i)]
    exact engineValue_idle hp _ _

/-- Settles O37: while BUSY = 1 the three registers read as the free value. -/
theorem busyReadsDoNotShowResults : Obligations.BusyReadsDoNotShowResults := by
  intro s v g w off hb
  have hfree (x y : Word) :
      engineValue off x { s with result := v, grid := g, sched := w } = engineValue off y s :=
    (if_pos hb).trans (if_pos hb).symm
  unfold readValue
  cases regAt off with
  | result | state | sched => exact hfree _ _
  | _ => rfl

/-! ### STATUS -/

/-- Bits of STATUS are bits of its fields in a row (R31). -/
theorem statusWord_extractLsb' (busy : Bool) (st : Status) (start len : Nat) :
    (statusWord busy st).extractLsb' start len =
      BitVec.extractLsb' start len (st.round ++ dirBits st.dir ++ fsmBits st.fsm ++ st.nr ++ st.nk ++ 0#4 ++
        errBits st.errcode ++ 0#4 ++ flagBit st.ovr ++ flagBit st.err ++ flagBit st.keyValid ++
        flagBit busy) :=
  rfl

theorem flagBit_beq_one (b : Bool) : (flagBit b == 1#1) = b := by
  cases b <;> rfl

/-- Settles O32: the bits of a field lie above the fields after it and below those before it. -/
theorem statusWordHoldsItsFields : Obligations.StatusWordHoldsItsFields := by
  intro busy st
  simp (disch := omega) only [BitVec.getLsbD_eq_extractLsb', statusWord_extractLsb',
    BitVec.extractLsb'_append_eq_of_le, BitVec.extractLsb'_append_eq_of_add_le, BitVec.extractLsb'_eq_self,
    Nat.reduceSub, flagBit_beq_one, true_and, and_true]
  refine ⟨rfl, ?errcode, rfl, ?fsm, ?dir⟩
  case errcode => cases st.errcode <;> rfl
  case fsm => cases st.fsm <;> rfl
  case dir => cases st.dir <;> rfl

/-! ### Writes to the input registers -/

/-- What an input register reads as (R22 to R26); 0 for the other registers. -/
def inputValue (r : Reg) (h : HostRegs) : Word :=
  match r with
  | .keylen => zextByte h.keylen
  | .blklen => zextByte h.blklen
  | .opw => h.opw
  | .key k => h.key[k]
  | .din k => h.din[k]
  | _ => 0

/-- A write to one input register leaves what the others read as. -/
theorem inputValue_writeInput_of_ne {r a : Reg} (h : a ≠ r) (v : Word) (regs : HostRegs) :
    inputValue a (writeInput r v regs) = inputValue a regs := by
  cases r with
  | key k =>
    cases a with
    | key j =>
      have hkj : k.val ≠ j.val := fun hkj => h (congrArg Reg.key (Fin.ext hkj.symm))
      exact Vector.getElem_set_ne k.isLt j.isLt hkj
    | _ => rfl
  | din k =>
    cases a with
    | din j =>
      have hkj : k.val ≠ j.val := fun hkj => h (congrArg Reg.din (Fin.ext hkj.symm))
      exact Vector.getElem_set_ne k.isLt j.isLt hkj
    | _ => rfl
  | keylen | blklen | opw => cases a <;> simp_all [inputValue, writeInput]
  | _ => rfl

/-- A read in a block that differs in its input registers and in the free value's index: the other registers read
as before, RESULT, STATE and SCHED while BUSY = 0. -/
theorem readValue_withRegs_tick (s : State) (regs : HostRegs) (off : Nat)
    (hsteady : s.busy = true → (regAt off).steady = true)
    (hvalue : inputValue (regAt off) regs = inputValue (regAt off) s.regs) :
    readValue off (s.withRegs regs).tick = readValue off s := by
  have hengine (v : Word) (hfree : (regAt off).steady = false) :
      engineValue off v (s.withRegs regs).tick = engineValue off v s := by
    have hidle : ¬ s.busy = true := fun hb => absurd (hfree.symm.trans (hsteady hb)) (by decide)
    exact (if_neg hidle).trans (if_neg hidle).symm
  unfold readValue
  cases hreg : regAt off <;> simp only [hreg] at hvalue hengine ⊢
  case result | state | sched => exact hengine _ rfl
  case keylen | blklen | opw | key | din => exact hvalue
  all_goals rfl

/-- The step of a write to an input register, seen through what the registers read as. -/
theorem readValue_hostWrite_input {s : State} (hr : s.rstN = true) {off : Nat} (v : Word) (es : List Event)
    (ho : off = 0x008 ∨ off = 0x00C ∨ off = 0x010 ∨ 0x020 ≤ off ∧ off < 0x050) (a : Nat) :
    readValue a (hostWrite off v { s with events := es }).tick =
      readValue a (s.withRegs (writeInput (regAt off) v s.regs)).tick := by
  rw [hostWrite_input v _ ho, if_pos (by exact hr)]
  rfl

/-- Settles O33: the written register holds the value, and another offset is another register's. -/
theorem writtenInputReadsBackAndAloneChanges : Obligations.WrittenInputReadsBackAndAloneChanges := by
  intro s off v es hr h4 hlt he
  refine ⟨_, step_write he h4 hlt, rfl, fun ho => ?byte, fun ho => ?word, fun ho a ha4 halt hne hidle => ?others⟩
  case byte =>
    rw [readValue_hostWrite_input hr v es (by omega)]
    rcases ho with rfl | rfl <;> rfl
  case word =>
    rw [readValue_hostWrite_input hr v es (by omega)]
    have hreg := regAt_input (off := off) (by omega)
    have hoff := regOffset_regAt h4 hlt
    rcases hreg with h | h | h | ⟨k, h⟩ | ⟨k, h⟩ <;> rw [readValue, h] <;> rw [h] at hoff
    · exact absurd (hoff (by simp)) (show 0x008 ≠ off by omega)
    · exact absurd (hoff (by simp)) (show 0x00C ≠ off by omega)
    · rfl
    · exact Vector.getElem_set_self ..
    · exact Vector.getElem_set_self ..
  case others =>
    rw [readValue_hostWrite_input hr v es ho]
    have hinput : regAt off ≠ .reserved := by
      rcases regAt_input ho with h | h | h | ⟨k, h⟩ | ⟨k, h⟩ <;> simp [h]
    have hreg : regAt a ≠ regAt off := by
      intro h
      rw [← regOffset_regAt ha4 halt (h ▸ hinput), h, regOffset_regAt h4 hlt hinput] at hne
      exact hne rfl
    exact readValue_withRegs_tick s _ a (fun hb => steady_regAt ha4 halt (hidle hb))
      (inputValue_writeInput_of_ne hreg v s.regs)

/-! ### Accesses that stop -/

/-- Settles O35: the port's check and then the window's, for reads and writes alike. -/
theorem onlyImpossibleAccessesStop : Obligations.OnlyImpossibleAccessesStop := by
  intro s off width v es he
  obtain ⟨f, u, hstep⟩ : ∃ f u, step s = busAccess off width f u := by
    rcases he with he | he
    · exact ⟨hostRead off, { s with events := es }, by rw [step, he]; rfl⟩
    · exact ⟨fun s => (hostWrite off v s).tick, { s with events := es }, by rw [step, he]; rfl⟩
  rw [hstep, busAccess]
  refine ⟨fun h => if_pos h, ?_, ?_⟩
  · rintro rfl h4 hbeyond
    simp [Config.busBits, Config.windowBytes, h4, hbeyond]
  · rintro rfl h4 hinside
    exact ⟨_, busAccess_ok f u h4 hinside⟩

/-! ### Reset -/

/-- The step that drives rst_n (R300). -/
theorem step_rst {s : State} {level : Bool} {es : List Event} (he : s.events = .rst level :: es) :
    step s = .next (setRst level { s with events := es }.tick) := by
  rw [step, he]
  rfl

/-- Settles O49: both states have the registers of reset. -/
theorem resetLeavesTheStatedValues : Obligations.ResetLeavesTheStatedValues := by
  refine ⟨fun s level es he => step_rst he, fun s es he => step_rst he, ?_⟩
  have hstatus : statusWord false Status.reset = 0 := by decide
  have hkey : ∀ k : Fin 8, HostRegs.reset.keyWritten[k] = false := by decide
  have hdin : ∀ k : Fin 4, HostRegs.reset.dinWritten[k] = false := by decide
  rintro s t (rfl | rfl) <;> exact ⟨rfl, rfl, hstatus, rfl, rfl, hkey, hdin, rfl, rfl⟩

/-- Settles O50: while rst_n = 0 the host's write and the engine's turn are the identity. -/
theorem heldInResetNothingHappens : Obligations.HeldInResetNothingHappens := by
  refine ⟨fun s es off v hr h4 hlt => ⟨fun he => ?write, fun he => ?read, fun he => ?engine, fun he => ?idle⟩,
    fun s es he => ⟨_, step_rst he, rfl, rfl, rfl, rfl⟩⟩
  case write =>
    rw [step_write he h4 hlt, hostWrite, if_neg (by simp [hr])]
    rfl
  case read => rw [step_read he h4 hlt, hostRead, if_neg (by simp [hr])]
  case engine => rw [step_engine he, engineStep, if_neg (by simp [hr])]
  case idle => rw [step_nil he, engineStep, if_neg (by simp [hr])]

/-- Settles O51: O7 at the register values of reset. -/
theorem afterResetOnlyKeylessCommandsAreAccepted : Obligations.AfterResetOnlyKeylessCommandsAreAccepted := by
  rintro v i e hd rfl
  obtain ⟨hill, hlen, hkey, hblk, hrange⟩ := verdictIsTheFirstApplicableError v
    State.reset.status.keyValid State.reset.status.nr State.reset.regs
  have hvalid : State.reset.status.keyValid = false := rfl
  have hkeylen : State.reset.regs.keylen = 0 := rfl
  have hblklen : State.reset.regs.blklen = 0 := rfl
  refine ⟨?_, ?_, ?_, ?_, ?_⟩
  · simpa [hd, hvalid] using hkey
  · simpa [hd, hkeylen] using hlen
  · simpa [hd, hvalid, hblklen] using hblk
  · simpa [hd, hvalid] using hrange
  · simpa [hd] using hill

/-! ### The engine's turn -/

/-- Settles O8: the event is taken off, the index advances, and the word in flight is decoded. -/
theorem engineTurnRunsTheDecodedCommand : Obligations.EngineTurnRunsTheDecodedCommand := by
  intro i s p hr hf
  refine ⟨fun he => step_inFlight hr he hf, fun es he => ?_⟩
  obtain ⟨hp, hd⟩ := hf
  rw [step_engine he]
  simp [engineStep, hr, hp, hd, State.tick]

/-- Settles O9: the code of completion of such a word is ILLEGAL_COMMAND. -/
theorem illegalWordCompletesWithIllegalCommand : Obligations.IllegalWordCompletesWithIllegalCommand := by
  intro s p hr hp hillegal
  have hcode : completionCode p = .illegalCommand := by
    cases hd : decode p.cmd with
    | ok i => exact absurd hd (hillegal i)
    | error _ => simp [completionCode, hd]
  have hturn (es : List Event) :
      engineStep { s with events := es } =
        .next (afterError .illegalCommand { s with events := es, epoch := s.epoch + 1 }) := by
    rw [engineStep_failed (by exact hr) (by exact hp) (by rw [hcode]; decide), hcode,
      fail_eq_afterError _ _ (by decide) (by decide)]
    rfl
  refine ⟨fun he => ?_, fun es he => ?_⟩
  · rw [step_nil he]
    exact hturn s.events
  · rw [step_engine he]
    exact hturn es

end Sys2Proof.Machine
end
